-- ==== Sys2Proof/Word.lean ====
section
/-! DEFINITION. The words of the Ferin GPE: bytes and 64-bit registers (00_scope R13, R16). -/

namespace Sys2Proof

/-- One byte of memory (R16: the smallest addressed unit). -/
abbrev Byte := BitVec 8

/-- One register: every register is 64 bits wide (00_scope, before R13). -/
abbrev Word := BitVec 64

/-- The number held by a little-endian list of bytes (R16). -/
def leNat : List Byte → Nat
  | [] => 0
  | b :: bs => b.toNat + 256 * leNat bs

/-- `len` bytes of `n`, least significant first (R16). -/
def natLE (n : Nat) : Nat → List Byte
  | 0 => []
  | len + 1 => BitVec.ofNat 8 n :: natLE (n / 256) len

end Sys2Proof
end

