-- ==== Sys2Proof/Syntax.lean ====
section
/-! DEFINITION. The commands of the block: one constructor per row of opcode_table.json, with the row's operands. -/

namespace Sys2Proof

/-- A started command of a queue: queue and sequence number (R294). -/
structure CmdRef where
  q   : BitVec 4
  seq : BitVec 32
  deriving DecidableEq, Repr

/-- A command with a completion record: one of a queue, or the fired armed SNAP, which is of no queue (R334). -/
inductive DoneRef where
  | queued (r : CmdRef)
  | fired
  deriving DecidableEq, Repr

/-- What a self-test found (R414, R416, R417): arrays and cores whose signature differed with the signature read,
and memories that failed with the class, the count of failing words and the first failing word. -/
structure BistOutcome where
  misrFail : List (BitVec 5 × BitVec 64)
  memFail  : List (BitVec 6 × BitVec 8 × BitVec 16 × BitVec 40)
  deriving DecidableEq, Repr

/-- The status of an M-port response (R385). -/
inductive MStatus where
  | ok
  | error
  | poison
  | reserved
  deriving DecidableEq, Repr

/-- The straps sampled when a reset is deasserted (R381). -/
structure Straps where
  chipNum : BitVec 16
  fports  : BitVec 4
  deriving DecidableEq, Repr

/-- Where a codeword error appears (R361): memory class (R363), unit, and word. -/
structure ErrSite where
  cls  : BitVec 4
  unit : BitVec 8
  word : BitVec 32
  deriving DecidableEq, Repr

/-- The commands of the Ferin GPE. -/
inductive Instr where
  | nop (r : CmdRef)
  | loadw (r : CmdRef)
  | plain (r : CmdRef)
  | dx (r : CmdRef)
  | dw (r : CmdRef)
  | pair (r : CmdRef)
  | fold (r : CmdRef)
  | gclearOpen (r : CmdRef)
  | gclearClear (r : CmdRef)
  | gclearClose (r : CmdRef)
  | gsaveGroup (r : CmdRef)
  | flush (r : CmdRef)
  | divert (r : CmdRef)
  | grestoreGroup (r : CmdRef)
  | preload (r : CmdRef)
  | sieve (r : CmdRef)
  | compress (r : CmdRef)
  | gather (r : CmdRef)
  | scatterStore (r : CmdRef)
  | scatterAccum (r : CmdRef)
  | scatterAccumGroup (r : CmdRef)
  | sendContrib (r : CmdRef)
  | sendParams (r : CmdRef)
  | sendChain (r : CmdRef)
  | recvReduced (r : CmdRef)
  | recvParams (r : CmdRef)
  | recvChainAdd (r : CmdRef)
  | recvChainSet (r : CmdRef)
  | apply (r : CmdRef)
  | applyCopy (r : CmdRef)
  | commit (r : CmdRef)
  | epochFlip (r : CmdRef)
  | abandon (r : CmdRef)
  | abandonDone (r : CmdRef)
  | snap (r : DoneRef)
  | restore (r : CmdRef)
  | epochOnlyRestore (r : CmdRef)
  | fence (r : CmdRef)
  | fenceTargetsReached (r : CmdRef)
  | stamp (r : CmdRef)
  | stampWrite (r : CmdRef)
  | bump (r : CmdRef)
  | cancel (r : CmdRef)
  | quarantine (r : CmdRef)
  | release (r : CmdRef)
  | ledgerClear (r : CmdRef)
  | ledgerDump (r : CmdRef)
  | ledgerLoad (r : CmdRef)
  | bistLogic (r : CmdRef)
  | bistMemory (r : CmdRef)
  | bistLogicThenMemory (r : CmdRef)
  | bistEnd (r : CmdRef) (o : BistOutcome)
  | doorbell (q : BitVec 4) (tail : BitVec 32)
  | queueEnable (q : BitVec 4) (ctl : Word)
  | queueDisable (q : BitVec 4) (ctl : Word)
  | resume (q : BitVec 4)
  | setptr (q : BitVec 4) (v : BitVec 32)
  | descriptorFetch (q : BitVec 4)
  | commandStart (q : BitVec 4)
  | ledgerView (r : CmdRef)
  | completionRecord (r : DoneRef)
  | preempt (r : CmdRef)
  | commandResume (r : CmdRef)
  | planeSaveComplete (a : BitVec 5)
  | planeLoadComplete (a : BitVec 5)
  | slotLoad (a : BitVec 5)
  | rowGroupIssue (a : BitVec 5)
  | patchRowGroup (a : BitVec 5) (patch : BitVec 8)
  | carryRelay (a : BitVec 5)
  | hodDelivery
  | fillerBridgeExpiry (a : BitVec 5)
  | starve (a : BitVec 5) (patch : BitVec 8)
  | trowelFetch (r : CmdRef)
  | trowelStore (r : CmdRef)
  | lcacheInv
  | foldBegin (a : BitVec 5)
  | foldEnd (a : BitVec 5)
  | tileFetch (g : BitVec 6) (t : BitVec 14)
  | tileEvict
  | sieveDecision (r : CmdRef)
  | handoffRecord
  | scaWindow (r : CmdRef)
  | packetSend (port : BitVec 2)
  | fportReceive (port : BitVec 2) (pid : BitVec 12) (packet : List Byte)
  | fportStatus (port : BitVec 2) (pid : BitVec 12) (error : Bool)
  | recvWait (r : CmdRef)
  | advisorEvaluation (layer : BitVec 8)
  | powerTarget (v : Word)
  | clockRequest
  | pclkAckRise
  | wakeDone
  | sleepQuiescenceEnd
  | pclkAckFall
  | retentionEntryDone
  | clkSlow
  | governorTick (time : BitVec 64)
  | throttleChange (level : BitVec 4)
  | budgetChange (b : BitVec 9)
  | scrubAccess
  | correctionWriteBack
  | bucketLeak
  | keepMajorityRepair
  | mportResponse (port : BitVec 4) (tag : BitVec 10) (st : MStatus) (poison : BitVec 16) (data : List Byte)
  | tbValidChange (valid : Bool)
  | tbStep (time : BitVec 64)
  | rstN (asserted : Bool) (straps : Straps)
  | wrstN (asserted : Bool) (straps : Straps)
  | powerLoss
  | interruptMessage
  | traceRecordWrite
  | regWrite (addr : BitVec 17) (v : Word)
  | ctlClr (page : BitVec 8)
  | clrUe (page : BitVec 8)
  | evtClear (page : BitVec 8) (mask : Word)
  | arrayLiveWrite (v : Word)
  | riskLevelWrite (v : Word)
  | arm
  | disarm
  | traceMark (v : Word)
  | trcRingWrite (ctl : Bool) (v : Word)
  | advDataRead
  | advDataWrite (v : Word)
  | statDataRead
  | logData3Read
  | wsBypass
  | wsExtest
  | wsIntest
  | wsPreload (v : List Bool)
  | wsClamp
  | wsScan
  | wpScan
  | wsIjtag
  | bistControllerStart (u : BitVec 6) (kind : BitVec 2)
  | memoryError (e : ErrSite) (double : Bool)
  | arrayFailure (a : BitVec 5)
  | bistControllerDone (u : BitVec 6) (fail : Bool) (misr : Word) (count : BitVec 16) (first : BitVec 48)
  | wrstn
  deriving DecidableEq, Repr

end Sys2Proof
end

