-- ==== Sys2Proof/Decode.lean ====
section
/-! DEFINITION. The command a table word spells: no row of the block's table has bits, so no word spells one. -/

namespace Sys2Proof

/-- The command spelled by a word of `nbits` bits (none: no row of opcode_table.json gives bits). -/
def decodeTableWord (_nbits _w : Nat) : Option Instr := none

end Sys2Proof
end

