-- ==== Sys2Proof/Machine/Bits.lean ====
section
/-! DEFINITION. Bit fields, ordered tables, the CRC-64 digest (R11) and the Philox draw (R72). -/

namespace Sys2Proof.Machine

/-- Bits `lo + w - 1 .. lo` of `n`, written [msb:lsb] in the manual (R16). -/
def bitsOf (n lo w : Nat) : Nat := (n >>> lo) % 2 ^ w

/-- Bit `i` of `n`. -/
def bitOf (n i : Nat) : Bool := bitsOf n i 1 == 1

/-- The two's-complement reading of the low `w` bits of `n`. -/
def signedOf (n w : Nat) : Int :=
  let u := n % 2 ^ w
  if u < 2 ^ (w - 1) then (u : Int) else (u : Int) - (2 ^ w : Nat)

/-- `n` bytes of `l` from offset `off` as a little-endian number; bytes past the end count 0. -/
def fieldAt (l : List Byte) (off n : Nat) : Nat := leNat ((l.drop off).take n)

/-- The bits of `n` shifted to `lo`, to be joined by addition with disjoint fields. -/
def placed (n lo w : Nat) : Nat := (n % 2 ^ w) <<< lo

/-- Addition that stops at `2^w - 1` (saturating counters, R430). -/
def satAdd (w a b : Nat) : Nat := min (a + b) (2 ^ w - 1)

/-- `a` rounded up to a multiple of `b`. -/
def roundUp (a b : Nat) : Nat := (a + b - 1) / b * b

/-- The quotient `a / b` rounded up. -/
def ceilDiv (a b : Nat) : Nat := (a + b - 1) / b

/-- Apply `f` to `x`, `n` times. -/
def iter {α : Type} (f : α → α) : Nat → α → α
  | 0, x => x
  | n + 1, x => iter f n (f x)

/-- Fold `f` over the numbers `from`, `from + 1`, … of `n` steps. -/
def forN {α : Type} (n : Nat) (f : Nat → α → α) (x : α) : α := (List.range n).foldl (fun a i => f i a) x

/-! ### Ordered tables

A table is a list of (key, value) pairs with rising keys and no entry equal to what an unlisted key reads as. -/

/-- The value at `k`: the listed one, or `d`. -/
def tget {α : Type} (d : α) : List (Nat × α) → Nat → α
  | [], _ => d
  | (k', v) :: r, k => if k' = k then v else tget d r k

/-- The table without key `k`. -/
def tdel {α : Type} : List (Nat × α) → Nat → List (Nat × α)
  | [], _ => []
  | (k', v) :: r, k => if k' = k then tdel r k else (k', v) :: tdel r k

/-- The table with `v` listed at `k`. -/
def tins {α : Type} : List (Nat × α) → Nat → α → List (Nat × α)
  | [], k, v => [(k, v)]
  | (k', v') :: r, k, v =>
    if k' = k then (k, v) :: r else if k < k' then (k, v) :: (k', v') :: r else (k', v') :: tins r k v

/-- The table with `v` at `k`, in canonical form: writing the default removes the entry. -/
def tput {α : Type} [DecidableEq α] (d : α) (l : List (Nat × α)) (k : Nat) (v : α) : List (Nat × α) :=
  if v = d then tdel l k else tins l k v

/-- The value listed at `k`, if any. -/
def tfind {α : Type} : List (Nat × α) → Nat → Option α
  | [], _ => none
  | (k', v) :: r, k => if k' = k then some v else tfind r k

/-- Change the value at `k` by `f`. -/
def tmod {α : Type} [DecidableEq α] (d : α) (l : List (Nat × α)) (k : Nat) (f : α → α) : List (Nat × α) :=
  tput d l k (f (tget d l k))

/-- The canonical form: keys rise strictly and no entry holds the default. -/
def tableWf {α : Type} [DecidableEq α] (d : α) : List (Nat × α) → Bool
  | [] => true
  | [(_, v)] => v != d
  | (k, v) :: (k', v') :: r => v != d && k < k' && tableWf d ((k', v') :: r)

/-! ### Lists -/

/-- Insert into a list sorted by `key`, after the entries whose key is not greater. -/
def insertBy {α : Type} (key : α → Nat) (x : α) : List α → List α
  | [] => [x]
  | y :: r => if key x < key y then x :: y :: r else y :: insertBy key x r

/-- Sort by rising `key`; entries of equal key keep their order. -/
def sortBy {α : Type} (key : α → Nat) (l : List α) : List α :=
  l.foldl (fun acc x => insertBy key x acc) []

/-- The list in chunks of `n`, the last one possibly shorter; the fuel is the list's length. -/
def chunksAux {α : Type} (n : Nat) : Nat → List α → List (List α)
  | 0, _ => []
  | fuel + 1, l => if l.isEmpty then [] else l.take n :: chunksAux n fuel (l.drop n)

/-- The list in chunks of `n` elements. -/
def chunksOf {α : Type} (n : Nat) (l : List α) : List (List α) := chunksAux n l.length l

/-- `len` zero bytes. -/
def zeros (len : Nat) : List Byte := List.replicate len 0#8

/-- A record's bytes cut or zero-filled to `len` (reserved tails are 0, R14). -/
def padTo (len : Nat) (l : List Byte) : List Byte := (l ++ zeros (len - l.length)).take len

/-! ### CRC-64 (R11) -/

/-- The CRC-64 polynomial of R11. -/
def crcPoly : Nat := 0x42F0E1EBA9EA3693

/-- One bit of the CRC register, most significant bit first. -/
def crcShift (c : Nat) : Nat :=
  if c < 2 ^ 63 then c * 2 else ((c * 2) % 2 ^ 64) ^^^ crcPoly

/-- One byte into the CRC register. -/
def crcByte (c : Nat) (b : Byte) : Nat := iter crcShift 8 (c ^^^ (b.toNat <<< 56))

/-- The CRC-64 of the bytes continuing from register value `c`. -/
def crcFrom (c : Nat) (l : List Byte) : Nat := l.foldl crcByte c

/-- The digest of R11: initial value 0, no reflection, no final XOR, ascending addresses. -/
def crc64 (l : List Byte) : Nat := crcFrom 0 l

/-! ### Philox-4x32-10 (R10, R72) -/

/-- The two 32-bit halves (high, low) of a 32 by 32-bit product. -/
def mulHiLo (a b : Nat) : Nat × Nat := ((a * b) / 2 ^ 32, (a * b) % 2 ^ 32)

/-- One Philox round on the counter (c0, c1, c2, c3) with key (k0, k1). -/
def philoxRound (k0 k1 : Nat) : Nat × Nat × Nat × Nat → Nat × Nat × Nat × Nat
  | (c0, c1, c2, c3) =>
    let p0 := mulHiLo 0xD2511F53 c0
    let p1 := mulHiLo 0xCD9E8D57 c2
    (p1.1 ^^^ c1 ^^^ k0, p1.2, p0.1 ^^^ c3 ^^^ k1, p0.2)

/-- `n` Philox rounds, the key advanced by the Weyl constants after each. -/
def philoxRounds : Nat → Nat → Nat → Nat × Nat × Nat × Nat → Nat × Nat × Nat × Nat
  | 0, _, _, c => c
  | n + 1, k0, k1, c =>
    philoxRounds n ((k0 + 0x9E3779B9) % 2 ^ 32) ((k1 + 0xBB67AE85) % 2 ^ 32) (philoxRound k0 k1 c)

/-- What addresses one draw (R72). -/
structure DrawAddr where
  seed  : Nat
  point : Nat
  tid   : Nat
  step  : Nat
  deriving DecidableEq, Repr

/-- The 32-bit draw of element `idx` (R72, R74). -/
def srDraw (a : DrawAddr) (idx : Nat) : Nat :=
  let q := idx / 4
  let c := philoxRounds 10 (a.seed % 2 ^ 32) (a.seed / 2 ^ 32 % 2 ^ 32)
    (q % 2 ^ 32, a.point * 2 ^ 24 + q / 2 ^ 32 % 2 ^ 14, a.tid, a.step)
  match idx % 4 with
  | 0 => c.1
  | 1 => c.2.1
  | 2 => c.2.2.1
  | _ => c.2.2.2

end Sys2Proof.Machine
end

