-- ==== Sys2Proof/Machine/Float.lean ====
section
/-! DEFINITION. The number formats (02_number_formats R33 to R55) and every rounding of the engine
(03_rounding_bounds_and_format_choice R56 to R73): values, decoding, rounding, stores, MX blocks, cell steps. -/

namespace Sys2Proof.Machine

/-- A value: a NaN, an infinity, or `(-1)^neg * m * 2^e` (`m = 0` is a signed zero). -/
inductive Val where
  | nan
  | inf (neg : Bool)
  | fin (neg : Bool) (m : Nat) (e : Int)
  deriving DecidableEq, Repr

/-- The special codes of a format (R37). -/
inductive Special where
  | ieee
  | e4m3
  | none
  deriving DecidableEq, Repr

/-- A floating-point layout: sign, exponent and fraction fields (R37). -/
structure FloatFmt where
  exp     : Nat
  frac    : Nat
  special : Special
  deriving DecidableEq, Repr

def ffB64 : FloatFmt := ⟨11, 52, .ieee⟩
def ffAF48 : FloatFmt := ⟨8, 39, .ieee⟩
def ffFP32 : FloatFmt := ⟨8, 23, .ieee⟩
def ffBF16 : FloatFmt := ⟨8, 7, .ieee⟩
def ffFP16 : FloatFmt := ⟨5, 10, .ieee⟩
def ffE5M2 : FloatFmt := ⟨5, 2, .ieee⟩
def ffE4M3 : FloatFmt := ⟨4, 3, .e4m3⟩
def ffE3M2 : FloatFmt := ⟨3, 2, .none⟩
def ffE2M3 : FloatFmt := ⟨2, 3, .none⟩
def ffE2M1 : FloatFmt := ⟨2, 1, .none⟩

/-- The exponent bias (R37). -/
def ffBias (f : FloatFmt) : Nat := 2 ^ (f.exp - 1) - 1

/-- The exponent of the smallest normal (R37): `1 - bias`. -/
def ffEmin (f : FloatFmt) : Int := 1 - (ffBias f : Int)

/-- The magnitude code of the largest finite value (R37). -/
def ffMaxCode (f : FloatFmt) : Nat :=
  match f.special with
  | .ieee => (2 ^ f.exp - 1) * 2 ^ f.frac - 1
  | .e4m3 => 2 ^ (f.exp + f.frac) - 2
  | .none => 2 ^ (f.exp + f.frac) - 1

/-- The magnitude code of Inf, where the format has one (R37). -/
def ffInfCode (f : FloatFmt) : Nat := (2 ^ f.exp - 1) * 2 ^ f.frac

/-- The canonical NaN encoding (R39); formats without NaN never need it. -/
def ffNaN (f : FloatFmt) : Nat :=
  match f.special with
  | .ieee => ffInfCode f + 2 ^ (f.frac - 1)
  | .e4m3 => 2 ^ (f.exp + f.frac) - 1
  | .none => 0

/-- The sign bit of the layout. -/
def ffSign (f : FloatFmt) (neg : Bool) : Nat := if neg then 2 ^ (f.exp + f.frac) else 0

/-- The exponent of the largest power of two of the format (R49 emax). -/
def ffEmax (f : FloatFmt) : Int :=
  (((ffMaxCode f) >>> f.frac : Nat) : Int) - (ffBias f : Int)

/-- The value of a magnitude code read at unbounded exponent (R37). -/
def codeVal (f : FloatFmt) (neg : Bool) (c : Nat) : Val :=
  let e := c >>> f.frac
  let m := c % 2 ^ f.frac
  if e = 0 then .fin neg m (ffEmin f - (f.frac : Int))
  else .fin neg (2 ^ f.frac + m) ((e : Int) - (ffBias f : Int) - (f.frac : Int))

/-- The value of an encoding (R37, R38, R40). -/
def decodeFloat (f : FloatFmt) (n : Nat) : Val :=
  let neg := bitOf n (f.exp + f.frac)
  let c := n % 2 ^ (f.exp + f.frac)
  match f.special with
  | .ieee =>
    if c = ffInfCode f then .inf neg else if c > ffInfCode f then .nan else codeVal f neg c
  | .e4m3 => if c = 2 ^ (f.exp + f.frac) - 1 then .nan else codeVal f neg c
  | .none => codeVal f neg c

/-- The rounding of a store (R44), with the element's draw under SR (R73); `rtp` serves the Sieve only (R10). -/
inductive Rnd where
  | rne
  | rtz
  | sr (draw : Nat)
  | rtp
  deriving DecidableEq, Repr

/-- Whether a magnitude with remainder `rem` of `2^d` below an `odd` or even `lo` goes up (R44, R73). -/
def roundsUp (r : Rnd) (neg odd : Bool) (rem d : Nat) : Bool :=
  match r with
  | .rne => 2 ^ d < 2 * rem || (2 * rem == 2 ^ d && odd)
  | .rtz => false
  | .sr draw => 2 ^ 32 ≤ (rem * 2 ^ 32) / 2 ^ d + draw
  | .rtp => !neg && rem != 0

/-- The magnitude code, at unbounded exponent range, of `m * 2^e` rounded once (R44, R45, R73). -/
def roundCode (f : FloatFmt) (r : Rnd) (neg : Bool) (m : Nat) (e : Int) : Nat :=
  if m = 0 then 0 else
  let low : Int := ffEmin f - (f.frac : Int)
  let top : Int := (Nat.log2 m : Int) + e - (f.frac : Int)
  let u : Int := if top < low then low else top
  let q : Nat :=
    if u ≤ e then m <<< (e - u).toNat
    else
      let d := (u - e).toNat
      let lo := m >>> d
      if roundsUp r neg (lo % 2 == 1) (m % 2 ^ d) d then lo + 1 else lo
  (u - low).toNat * 2 ^ f.frac + q

/-- A store into a plain format: the encoding, and whether SAT_EVENTS counts it (R45). -/
def storeFloat (f : FloatFmt) (r : Rnd) (sat : Bool) (v : Val) : Nat × Bool :=
  match v with
  | .nan => (ffNaN f, false)
  | .inf neg =>
    match f.special with
    | .ieee => (ffSign f neg + ffInfCode f, false)
    | .e4m3 => if sat then (ffSign f neg + ffMaxCode f, true) else (ffNaN f, true)
    | .none => (ffSign f neg + ffMaxCode f, true)
  | .fin neg m e =>
    let c := roundCode f r neg m e
    if c ≤ ffMaxCode f then (ffSign f neg + c, false)
    else
      let toMax := sat || (match r with | .rtz => true | .rtp => neg | _ => false)
      if toMax then (ffSign f neg + ffMaxCode f, true)
      else match f.special with
        | .ieee => (ffSign f neg + ffInfCode f, true)
        | .e4m3 => (ffNaN f, true)
        | .none => (ffSign f neg + ffMaxCode f, true)

/-- The encoding of a value rounded to nearest even, IEEE overflow (R65). -/
def encodeRNE (f : FloatFmt) (v : Val) : Nat := (storeFloat f .rne false v).1

/-! ### Exact arithmetic -/

/-- The sign and the size as one integer. -/
def signedM (neg : Bool) (m : Nat) : Int := if neg then -(m : Int) else m

/-- The exact sum of two dyadics `a.1 * 2^a.2`. -/
def dyAdd (a b : Int × Int) : Int × Int :=
  if a.1 = 0 then b else if b.1 = 0 then a
  else if a.2 ≤ b.2 then (a.1 + b.1 * 2 ^ (b.2 - a.2).toNat, a.2)
  else (a.1 * 2 ^ (a.2 - b.2).toNat + b.1, b.2)

def Val.isNaN : Val → Bool
  | .nan => true
  | _ => false

def Val.isInf : Val → Bool
  | .inf _ => true
  | _ => false

/-- NaN or an infinity. -/
def Val.nonFinite : Val → Bool
  | .fin _ _ _ => false
  | _ => true

def Val.isZero : Val → Bool
  | .fin _ m _ => m == 0
  | _ => false

def Val.isNegZero : Val → Bool
  | .fin neg m _ => neg && m == 0
  | _ => false

/-- The dyadic of a finite value. -/
def valDy : Val → Int × Int
  | .fin neg m e => (signedM neg m, e)
  | _ => (0, 0)

/-- The value of a dyadic; zero is `+0`. -/
def dyVal (d : Int × Int) : Val := .fin (d.1 < 0) d.1.natAbs d.2

/-- The exact sum with the special cases of R65 and the zero sign of R58. -/
def sumVals (l : List Val) : Val :=
  if l.any Val.isNaN then .nan
  else
    let p := l.any (· == .inf false)
    let n := l.any (· == .inf true)
    if p && n then .nan
    else if p then .inf false
    else if n then .inf true
    else
      let d := l.foldl (fun acc v => dyAdd acc (valDy v)) (0, 0)
      if d.1 = 0 then .fin (!l.isEmpty && l.all Val.isNegZero) 0 0 else dyVal d

/-- The exact product (R46, R65). -/
def mulVal : Val → Val → Val
  | .nan, _ => .nan
  | _, .nan => .nan
  | .inf a, .inf b => .inf (a != b)
  | .inf a, .fin b m _ => if m = 0 then .nan else .inf (a != b)
  | .fin a m _, .inf b => if m = 0 then .nan else .inf (a != b)
  | .fin a m e, .fin b n g => .fin (a != b) (m * n) (e + g)

/-- The value times `2^x`, exactly. -/
def scaleVal (v : Val) (x : Int) : Val :=
  match v with
  | .fin neg m e => .fin neg m (e + x)
  | v => v

def negVal : Val → Val
  | .nan => .nan
  | .inf s => .inf (!s)
  | .fin s m e => .fin (!s) m e

def absVal : Val → Val
  | .nan => .nan
  | .inf _ => .inf false
  | .fin _ m e => .fin false m e

/-- `floor(log2 |v|)` of a nonzero finite value; `none` otherwise. -/
def floorLog2 : Val → Option Int
  | .fin _ m e => if m = 0 then none else some ((Nat.log2 m : Int) + e)
  | _ => none

/-- `a ≤ b` on finite values and infinities; false with a NaN. -/
def leVal (a b : Val) : Bool :=
  match a, b with
  | .nan, _ => false
  | _, .nan => false
  | .inf true, _ => true
  | _, .inf false => true
  | .inf false, .fin _ _ _ => false
  | .inf false, .inf true => false
  | .fin _ _ _, .inf true => false
  | .fin s m e, .fin t n g =>
    let d := dyAdd (signedM s m, e) (-(signedM t n), g)
    d.1 ≤ 0

/-- The larger of two values that are not NaN. -/
def maxVal (a b : Val) : Val := if leVal a b then b else a

/-! ### Addition in binary64 and arithmetic in binary32 -/

/-- One binary64 addition under roundTiesToEven (R62, R65). -/
def b64Add (a b : BitVec 64) : BitVec 64 :=
  BitVec.ofNat 64 (encodeRNE ffB64 (sumVals [decodeFloat ffB64 a.toNat, decodeFloat ffB64 b.toNat]))

/-- One binary64 result under roundTowardPositive (R10, R71). -/
def b64Up (v : Val) : Val := decodeFloat ffB64 (storeFloat ffB64 .rtp false v).1

/-- A value rounded to binary32 under roundTiesToEven. -/
def f32Round (v : Val) : Nat := encodeRNE ffFP32 v

def f32Val (n : Nat) : Val := decodeFloat ffFP32 n
def f32Add (a b : Nat) : Nat := f32Round (sumVals [f32Val a, f32Val b])
def f32Sub (a b : Nat) : Nat := f32Round (sumVals [f32Val a, negVal (f32Val b)])
def f32Mul (a b : Nat) : Nat := f32Round (mulVal (f32Val a) (f32Val b))

/-- A quotient to 80 bits with a sticky last bit: rounding it once gives the rounded exact quotient. -/
def divVal : Val → Val → Val
  | .nan, _ => .nan
  | _, .nan => .nan
  | .inf _, .inf _ => .nan
  | .inf a, .fin b _ _ => .inf (a != b)
  | .fin a _ _, .inf b => .fin (a != b) 0 0
  | .fin a m e, .fin b n g =>
    if n = 0 then (if m = 0 then .nan else .inf (a != b))
    else if m = 0 then .fin (a != b) 0 0
    else
      let k := 80 + Nat.log2 n
      let num := m * 2 ^ k
      let q := num / n
      .fin (a != b) (2 * q + (if num % n = 0 then 0 else 1)) (e - g - (k : Int) - 1)

def f32Div (a b : Nat) : Nat := f32Round (divVal (f32Val a) (f32Val b))

/-- The integer square root, found bit by bit from bit `k - 1` down. -/
def isqrtAux (n : Nat) : Nat → Nat → Nat
  | 0, r => r
  | k + 1, r => let r' := r + 2 ^ k; if r' * r' ≤ n then isqrtAux n k r' else isqrtAux n k r

def isqrt (n : Nat) : Nat := isqrtAux n (Nat.log2 n / 2 + 1) 0

/-- A square root to at least 80 bits with a sticky last bit. -/
def sqrtVal : Val → Val
  | .nan => .nan
  | .inf true => .nan
  | .inf false => .inf false
  | .fin neg m e =>
    if m = 0 then .fin neg 0 0
    else if neg then .nan
    else
      let odd : Nat := if e % 2 = 0 then 0 else 1
      let n := m * 2 ^ (160 + odd)
      let r := isqrt n
      .fin false (2 * r + (if r * r = n then 0 else 1)) ((e - (odd : Int) - 160) / 2 - 1)

def f32Sqrt (a : Nat) : Nat := f32Round (sqrtVal (f32Val a))

/-! ### AF48 and cell steps (R41, R42, R56 to R61) -/

/-- The value of an AF48 entry (R41). -/
def af48Val (a : BitVec 48) : Val := decodeFloat ffAF48 a.toNat

/-- AF48 to binary64, exactly (R42). -/
def af48ToB64 (a : BitVec 48) : BitVec 64 := BitVec.ofNat 64 (encodeRNE ffB64 (af48Val a))

/-- The binary64 entry of 64 bits read from memory: a NaN becomes canonical (R38, R39). -/
def b64Entry (n : Nat) : BitVec 64 := BitVec.ofNat 64 (encodeRNE ffB64 (decodeFloat ffB64 n))

/-- The AF48 entry of 48 bits read from memory: a NaN becomes canonical (R38, R39). -/
def af48Entry (n : Nat) : BitVec 48 := BitVec.ofNat 48 (encodeRNE ffAF48 (decodeFloat ffAF48 n))

/-- FP32 to AF48, exactly: 16 zero bits appended (R41). NaNs become canonical (R39). -/
def fp32ToAF48 (n : Nat) : BitVec 48 := BitVec.ofNat 48 (encodeRNE ffAF48 (decodeFloat ffFP32 n))

/-- FP32 to binary64, exactly (R43). -/
def fp32ToB64 (n : Nat) : BitVec 64 := BitVec.ofNat 64 (encodeRNE ffB64 (decodeFloat ffFP32 n))

/-- One cell step: the exact sum of the plane value and the products, rounded once (R56, R65). -/
def cellStep (a : BitVec 48) (ps : List Val) : BitVec 48 :=
  BitVec.ofNat 48 (encodeRNE ffAF48 (sumVals (af48Val a :: ps)))

/-- The canonical sum over the cell steps in ascending K (R59). -/
def canonicalSum (init : BitVec 48) (steps : List (List Val)) : BitVec 48 := steps.foldl cellStep init

/-- NaN or Inf in an AF48 entry. -/
def af48NonFinite (a : BitVec 48) : Bool := (af48Val a).nonFinite

/-- NaN or Inf in a binary64 entry. -/
def b64NonFinite (a : BitVec 64) : Bool := (decodeFloat ffB64 a.toNat).nonFinite

/-! ### Element formats (R33 to R36, R46, R51) -/

/-- The element formats, codes 0x0 to 0x8 of R33. -/
inductive Fmt where
  | fp32
  | bf16
  | fp16
  | e4m3
  | e5m2
  | e3m2
  | e2m3
  | e2m1
  | int8
  deriving DecidableEq, Repr

/-- The element format of a 4-bit code (R33). -/
def fmtOf (code : Nat) : Option Fmt :=
  match code with
  | 0 => some .fp32 | 1 => some .bf16 | 2 => some .fp16 | 3 => some .e4m3 | 4 => some .e5m2
  | 5 => some .e3m2 | 6 => some .e2m3 | 7 => some .e2m1 | 8 => some .int8
  | _ => none

/-- The floating-point layout of a format; INT8 has none and takes FP32's place unused. -/
def Fmt.ff : Fmt → FloatFmt
  | .fp32 => ffFP32 | .bf16 => ffBF16 | .fp16 => ffFP16 | .e4m3 => ffE4M3 | .e5m2 => ffE5M2
  | .e3m2 => ffE3M2 | .e2m3 => ffE2M3 | .e2m1 => ffE2M1 | .int8 => ffFP32

/-- The width in bits (R33). -/
def Fmt.bits : Fmt → Nat
  | .fp32 => 32 | .bf16 => 16 | .fp16 => 16 | .e4m3 => 8 | .e5m2 => 8
  | .e3m2 => 6 | .e2m3 => 6 | .e2m1 => 4 | .int8 => 8

/-- The k of a product whose both operands have this format, doubled so that FP32's ½ is 1 (R36). -/
def Fmt.k2 : Fmt → Nat
  | .fp32 => 1 | .bf16 => 4 | .fp16 => 4 | .e4m3 => 8 | .e5m2 => 8
  | .e3m2 => 8 | .e2m3 => 8 | .e2m1 => 16 | .int8 => 8

/-- The products of one cell step: the smaller k, one product with an FP32 operand (R36, R56). -/
def stepK (a b : Fmt) : Nat := max 1 (min a.k2 b.k2 / 2)

/-- An operand's element format with its MX bit and tensor exponent (R34). -/
structure ElemFmt where
  fmt  : Fmt
  mx   : Bool
  texp : Int
  deriving DecidableEq, Repr

/-- The exact value of an element with scale byte `scale` (R46, R48, R51). -/
def elemVal (f : ElemFmt) (scale raw : Nat) : Val :=
  match f.fmt with
  | .int8 => let n := signedOf raw 8; .fin (n < 0) n.natAbs f.texp
  | fm =>
    if f.mx then
      if scale = 0xFF then .nan else scaleVal (decodeFloat fm.ff raw) ((scale : Int) - 127)
    else decodeFloat fm.ff raw

/-- The elements of a packed innermost row: element `j` at bits `[w j + w - 1 : w j]` (R16, R54). -/
def unpackRow (w n : Nat) (bytes : List Byte) : List Nat :=
  let all := leNat bytes
  (List.range n).map (fun j => bitsOf all (w * j) w)

/-- The bytes of a packed innermost row (R54). -/
def packRow (w : Nat) (raws : List Nat) : List Byte :=
  natLE ((raws.zip (List.range raws.length)).foldl (fun acc p => acc + (p.1 % 2 ^ w) <<< (w * p.2)) 0)
    (ceilDiv (w * raws.length) 8)

/-- The replacement of a non-finite element under MEND (R67). -/
def mendVal (f : ElemFmt) (scale : Nat) (v : Val) : Val :=
  match v with
  | .nan => .fin false 0 0
  | .inf neg =>
    let m := codeVal f.fmt.ff neg (ffMaxCode f.fmt.ff)
    if f.mx then scaleVal m ((scale : Int) - 127) else m
  | v => v

/-! ### Stores of rows (R44, R45, R49, R50) -/

/-- The rounding selected by an RND field (R44), before its draw. -/
inductive RndMode where
  | rne
  | rtz
  | sr
  deriving DecidableEq, Repr

/-- The rounding mode of an RND code; 0b11 is reserved (R44). -/
def rndOf (code : Nat) : Option RndMode :=
  match code with
  | 0 => some .rne | 1 => some .rtz | 2 => some .sr | _ => none

/-- The rounding with the draw of element `idx` under SR (R72). -/
def rndAt (r : RndMode) (a : DrawAddr) (idx : Nat) : Rnd :=
  match r with
  | .rne => .rne
  | .rtz => .rtz
  | .sr => .sr (srDraw a idx)

/-- How a store narrows: format, MX, rounding, saturation, draw address (R34, R44). -/
structure StoreFmt where
  fmt : Fmt
  mx  : Bool
  rnd : RndMode
  sat : Bool
  sr  : DrawAddr
  deriving DecidableEq, Repr

/-- One plain element. -/
def storeElem (f : StoreFmt) (idx : Nat) (v : Val) : Nat × Bool :=
  storeFloat f.fmt.ff (rndAt f.rnd f.sr idx) f.sat v

/-- The scale exponent `x` of a block whose largest finite magnitude has exponent `e` (R49). -/
def mxExp (ff : FloatFmt) (e : Int) : Int := min (max (e - ffEmax ff) (-127)) 127

/-- One MX element at scale exponent `x`: its code and whether it clamped (R49). -/
def mxElem (ff : FloatFmt) (r : Rnd) (x : Int) (v : Val) : Nat × Bool :=
  match v with
  | .fin neg m e =>
    let c := roundCode ff r neg m (e - x)
    if c ≤ ffMaxCode ff then (ffSign ff neg + c, false) else (ffSign ff neg + ffMaxCode ff, true)
  | _ => (0, false)

/-- One MX block of (index, value) pairs: scale byte, element codes, SAT_EVENTS count (R45, R49, R50). -/
def mxBlock (f : StoreFmt) (vs : List (Nat × Val)) : Nat × List Nat × Nat :=
  if vs.any (·.2.nonFinite) then (0xFF, vs.map (fun _ => 0), 1)
  else
    match vs.foldl (fun (a : Option Int) v => match floorLog2 v.2, a with
        | none, a => a
        | some e, none => some e
        | some e, some g => some (max e g)) none with
    | none => (0x00, vs.map (fun v => ffSign f.fmt.ff v.2.isNegZero), 0)
    | some e =>
      let x := mxExp f.fmt.ff e
      let qs := vs.map (fun v => mxElem f.fmt.ff (rndAt f.rnd f.sr v.1) x v.2)
      ((x + 127).toNat, qs.map (·.1), (qs.filter (·.2)).length)

/-- The codes, the scales and the SAT_EVENTS count of one innermost row of (index, value) pairs. -/
structure StoredRow where
  raws   : List Nat
  scales : List Nat
  events : Nat
  deriving DecidableEq, Repr

/-- A row stored in `f` (R45, R49, R53). -/
def storeRow (f : StoreFmt) (vs : List (Nat × Val)) : StoredRow :=
  if f.mx then
    let bs := (chunksOf 32 vs).map (mxBlock f)
    ⟨bs.flatMap (·.2.1), bs.map (·.1), bs.foldl (fun a b => a + b.2.2) 0⟩
  else
    let qs := vs.map (fun v => storeElem f v.1 v.2)
    ⟨qs.map (·.1), [], (qs.filter (·.2)).length⟩

end Sys2Proof.Machine
end

