-- ==== Sys2Proof/Config.lean ====
section
/-! DEFINITION. What an implementation fixes: the values the manual leaves open, as constants without a body. -/

namespace Sys2Proof

/-- A byte of memory that the manual leaves undefined, the `n`th taken: a table row after an M-port error of SCATTER ACCUM to memory
(R243), and what a write answered with ERROR leaves at its addresses (R389). -/
opaque Config.freeByte : Nat → Byte

/-- Which of the cached layout records a full layout cache replaces (R176 does not say), the `n`th choice. -/
opaque Config.lcacheVictim : Nat → Nat

/-- A header field of an EMPTY record that names a payload the record does not have (R252, R253), the `n`th taken. -/
opaque Config.emptyField : Nat → Nat

/-- The check-bit syndrome of an error-log record (R372): the manual gives no SECDED matrix; the `n`th taken. -/
opaque Config.syndrome : Nat → Nat

end Sys2Proof
end

