-- ==== Sys2Proof/Machine/Fields.lean ====
section
/-! DEFINITION. Every register field the spec's tables give, one definition each (18_register_pages R423 to R438 and
the register table of every chapter), and the fields of each page. -/

namespace Sys2Proof.Machine

/-- The access types of R13, with two kinds of RO field told apart: `view` is computed from the state it reports,
`const` never changes. -/
inductive Access where
  | rw
  | ro
  | view
  | const
  | wo
  | w1c
  | rwOnce
  deriving DecidableEq, Repr

/-- One register field: page code and instance, byte offset, lowest bit, width, reset value, access, and the
encodings a write may carry (`min` to `max`, and 0 with `zeroOk`); every other encoding is reserved (R14). -/
structure Field where
  page   : Nat
  off    : Nat
  lo     : Nat
  width  : Nat
  reset  : Nat
  acc    : Access
  min    : Nat
  max    : Nat
  zeroOk : Bool
  deriving DecidableEq, Repr

/-- The place of a field in the register tables of State. -/
def fieldKey (f : Field) : Nat := (f.page * 4096 + f.off) * 64 + f.lo

/-- Whether a write of `v` carries an encoding the field accepts (R14). -/
def fieldLegal (f : Field) (v : Nat) : Bool := (f.min ≤ v && v ≤ f.max) || (f.zeroOk && v == 0)


/-! ### The header of every page (R426) -/

def hdrPageIdPage (page : Nat) : Field := ⟨page, 0x000, 0, 8, page, .const, 0, 2 ^ 8 - 1, false⟩
def hdrPageIdInstance (page : Nat) : Field := ⟨page, 0x000, 8, 8, (if page < 0x10 then 0 else if page < 0x30 then page - 0x10 else page - 0x30), .const, 0, 2 ^ 8 - 1, false⟩
def hdrPageIdLayout (page : Nat) : Field := ⟨page, 0x000, 16, 8, 1, .const, 0, 2 ^ 8 - 1, false⟩
def hdrStatBusy (page : Nat) : Field := ⟨page, 0x018, 0, 1, 0, .view, 0, 2 ^ 1 - 1, false⟩
def hdrStatIrq (page : Nat) : Field := ⟨page, 0x018, 1, 1, 0, .view, 0, 2 ^ 1 - 1, false⟩
def hdrStatUeSeen (page : Nat) : Field := ⟨page, 0x018, 2, 1, 0, .ro, 0, 2 ^ 1 - 1, false⟩
def hdrCtlClr (page : Nat) : Field := ⟨page, 0x010, 0, 1, 0, .wo, 0, 2 ^ 1 - 1, false⟩
def hdrCtlClrUe (page : Nat) : Field := ⟨page, 0x010, 1, 1, 0, .wo, 0, 2 ^ 1 - 1, false⟩
def hdrEvt (page : Nat) : Field := ⟨page, 0x020, 0, 32, 0, .w1c, 0, 2 ^ 32 - 1, false⟩
def hdrEvtEn (page : Nat) : Field := ⟨page, 0x028, 0, 32, 0, .rw, 0, 2 ^ 32 - 1, false⟩
def hdrEvtStamp (page : Nat) : Field := ⟨page, 0x030, 0, 64, 0, .ro, 0, 2 ^ 64 - 1, false⟩
def hdrErrlogIndex (page : Nat) : Field := ⟨page, 0x038, 0, 8, 0, .ro, 0, 2 ^ 8 - 1, false⟩
def hdrErrlogValid (page : Nat) : Field := ⟨page, 0x038, 63, 1, 0, .ro, 0, 2 ^ 1 - 1, false⟩

/-! ### GLB -/

def glbArrayLiveLive : Field := ⟨0x0, 0x100, 0, 24, 0, .rwOnce, 0, 2 ^ 24 - 1, false⟩
def glbArrayLiveGrade : Field := ⟨0x0, 0x100, 24, 4, 0, .rwOnce, 0, 4, false⟩
def glbArrayLiveMapBad : Field := ⟨0x0, 0x100, 62, 1, 0, .ro, 0, 2 ^ 1 - 1, false⟩
def glbArrayLiveLocked : Field := ⟨0x0, 0x100, 63, 1, 0, .ro, 0, 2 ^ 1 - 1, false⟩
def glbFeedDomain : Field := ⟨0x0, 0x108, 0, 8, 0, .rw, 0, 2 ^ 8 - 1, false⟩
def glbRiskLevel : Field := ⟨0x0, 0x110, 0, 4, 0, .rw, 0, 2 ^ 4 - 1, false⟩
def glbSnapArmThreshold : Field := ⟨0x0, 0x118, 0, 4, 8, .rw, 0, 2 ^ 4 - 1, false⟩
def glbSnapArmArm : Field := ⟨0x0, 0x118, 8, 1, 0, .wo, 0, 2 ^ 1 - 1, false⟩
def glbSnapArmDisarm : Field := ⟨0x0, 0x118, 9, 1, 0, .wo, 0, 2 ^ 1 - 1, false⟩
def glbSnapArmState : Field := ⟨0x0, 0x118, 16, 2, 0, .view, 0, 2 ^ 2 - 1, false⟩
def glbSnapArmLast : Field := ⟨0x0, 0x118, 24, 8, 0, .ro, 0, 2 ^ 8 - 1, false⟩
def glbSnapArmOverridden : Field := ⟨0x0, 0x118, 32, 1, 0, .ro, 0, 2 ^ 1 - 1, false⟩
def glbSnapDescAddr : Field := ⟨0x0, 0x120, 0, 64, 0, .rw, 0, 2 ^ 64 - 1, false⟩
def glbSnapCplAddr : Field := ⟨0x0, 0x128, 0, 64, 0, .rw, 0, 2 ^ 64 - 1, false⟩
def glbSnapTimeTime : Field := ⟨0x0, 0x130, 0, 64, 0, .ro, 0, 2 ^ 64 - 1, false⟩
def glbRestoreStatPending : Field := ⟨0x0, 0x138, 0, 1, 0, .ro, 0, 2 ^ 1 - 1, false⟩
def glbRestoreStatStep : Field := ⟨0x0, 0x138, 32, 32, 0, .ro, 0, 2 ^ 32 - 1, false⟩
def glbMsiAddrAddr (i : Nat) : Field := ⟨0x0, (0x140 + 8 * i), 0, 64, 0, .rw, 0, 2 ^ 64 - 1, false⟩
def glbIrqCtlMode : Field := ⟨0x0, 0x160, 0, 4, 0, .rw, 0, 2 ^ 4 - 1, false⟩
def glbIrqStatSummary : Field := ⟨0x0, 0x168, 0, 4, 0, .view, 0, 2 ^ 4 - 1, false⟩
def glbIrqStatMsgs : Field := ⟨0x0, 0x168, 32, 32, 0, .ro, 0, 2 ^ 32 - 1, false⟩
def glbStrapsChipNum : Field := ⟨0x0, 0x170, 0, 16, 0, .ro, 0, 2 ^ 16 - 1, false⟩
def glbStrapsFportPresent : Field := ⟨0x0, 0x170, 16, 4, 0, .ro, 0, 2 ^ 4 - 1, false⟩
def glbTimeNow : Field := ⟨0x0, 0x178, 0, 64, 0, .view, 0, 2 ^ 64 - 1, false⟩
def glbTbStatValid : Field := ⟨0x0, 0x180, 0, 1, 0, .ro, 0, 2 ^ 1 - 1, false⟩
def glbTbStatSteps : Field := ⟨0x0, 0x180, 16, 32, 0, .ro, 0, 2 ^ 32 - 1, false⟩
def glbIdentVendor : Field := ⟨0x0, 0x188, 0, 16, 19283, .const, 0, 2 ^ 16 - 1, false⟩
def glbIdentProduct : Field := ⟨0x0, 0x188, 16, 16, 3911, .const, 0, 2 ^ 16 - 1, false⟩
def glbIdentStepping : Field := ⟨0x0, 0x188, 32, 8, 1, .const, 0, 2 ^ 8 - 1, false⟩
def glbIdentLayout : Field := ⟨0x0, 0x188, 40, 8, 1, .const, 0, 2 ^ 8 - 1, false⟩
def glbResetStatCause : Field := ⟨0x0, 0x190, 0, 1, 0, .ro, 0, 2 ^ 1 - 1, false⟩
def glbResetStatWrsts : Field := ⟨0x0, 0x190, 16, 16, 0, .ro, 0, 2 ^ 16 - 1, false⟩

/-- The page-specific fields of GLB. -/
def glbFields : List Field :=
  [glbArrayLiveLive, glbArrayLiveGrade, glbArrayLiveMapBad, glbArrayLiveLocked, glbFeedDomain, glbRiskLevel, glbSnapArmThreshold, glbSnapArmArm, glbSnapArmDisarm, glbSnapArmState, glbSnapArmLast, glbSnapArmOverridden, glbSnapDescAddr, glbSnapCplAddr, glbSnapTimeTime, glbRestoreStatPending] ++
  [glbRestoreStatStep, glbMsiAddrAddr 0, glbMsiAddrAddr 1, glbMsiAddrAddr 2, glbMsiAddrAddr 3, glbIrqCtlMode, glbIrqStatSummary, glbIrqStatMsgs, glbStrapsChipNum, glbStrapsFportPresent, glbTimeNow, glbTbStatValid, glbTbStatSteps, glbIdentVendor, glbIdentProduct, glbIdentStepping] ++
  [glbIdentLayout, glbResetStatCause, glbResetStatWrsts]

/-! ### CMD -/

def cmdSaveBaseAddr : Field := ⟨0x1, 0x100, 0, 64, 0, .rw, 0, 2 ^ 64 - 1, false⟩
def cmdClass0LatLast : Field := ⟨0x1, 0x108, 0, 16, 0, .ro, 0, 2 ^ 16 - 1, false⟩
def cmdClass0LatMax : Field := ⟨0x1, 0x108, 16, 16, 0, .ro, 0, 2 ^ 16 - 1, false⟩
def cmdClass0LatOver : Field := ⟨0x1, 0x108, 32, 32, 0, .ro, 0, 2 ^ 32 - 1, false⟩
def cmdPreemptsCount : Field := ⟨0x1, 0x110, 0, 32, 0, .ro, 0, 2 ^ 32 - 1, false⟩
def cmdPreemptsResumes : Field := ⟨0x1, 0x110, 32, 32, 0, .ro, 0, 2 ^ 32 - 1, false⟩
def cmdStartedCount : Field := ⟨0x1, 0x118, 0, 48, 0, .ro, 0, 2 ^ 48 - 1, false⟩
def cmdRunningCount : Field := ⟨0x1, 0x120, 0, 7, 0, .view, 0, 2 ^ 7 - 1, false⟩
def cmdRunningSaved : Field := ⟨0x1, 0x120, 8, 2, 0, .view, 0, 2 ^ 2 - 1, false⟩
def cmdBadDoorbellCount : Field := ⟨0x1, 0x128, 0, 16, 0, .ro, 0, 2 ^ 16 - 1, false⟩
def cmdBadDoorbellQueue : Field := ⟨0x1, 0x128, 16, 4, 0, .ro, 0, 2 ^ 4 - 1, false⟩

/-- The page-specific fields of CMD. -/
def cmdFields : List Field :=
  [cmdSaveBaseAddr, cmdClass0LatLast, cmdClass0LatMax, cmdClass0LatOver, cmdPreemptsCount, cmdPreemptsResumes, cmdStartedCount, cmdRunningCount, cmdRunningSaved, cmdBadDoorbellCount, cmdBadDoorbellQueue]

/-! ### PWR -/

def pwrStateCtlTarget : Field := ⟨0x2, 0x100, 0, 2, 0, .rw, 0, 2, false⟩
def pwrStateCtlDrainMode : Field := ⟨0x2, 0x100, 4, 1, 0, .rw, 0, 2 ^ 1 - 1, false⟩
def pwrState : Field := ⟨0x2, 0x108, 0, 3, 0, .view, 0, 2 ^ 3 - 1, false⟩
def pwrStateRestartPending : Field := ⟨0x2, 0x108, 8, 1, 0, .view, 0, 2 ^ 1 - 1, false⟩
def pwrStateKeepWait : Field := ⟨0x2, 0x108, 9, 1, 0, .view, 0, 2 ^ 1 - 1, false⟩
def pwrStateClkReq : Field := ⟨0x2, 0x108, 10, 1, 0, .view, 0, 2 ^ 1 - 1, false⟩
def pwrStateClkAck : Field := ⟨0x2, 0x108, 11, 1, 0, .view, 0, 2 ^ 1 - 1, false⟩
def pwrBudgetLimit : Field := ⟨0x2, 0x110, 0, 9, 96, .rw, 16, 256, false⟩
def pwrBudgetHost : Field := ⟨0x2, 0x110, 16, 9, 0, .ro, 0, 2 ^ 9 - 1, false⟩
def pwrBudgetEffective : Field := ⟨0x2, 0x110, 32, 9, 0, .view, 0, 2 ^ 9 - 1, false⟩
def pwrAmpsFp4 : Field := ⟨0x2, 0x118, 0, 8, 48, .rw, 0, 2 ^ 8 - 1, false⟩
def pwrAmpsFp8 : Field := ⟨0x2, 0x118, 8, 8, 44, .rw, 0, 2 ^ 8 - 1, false⟩
def pwrAmpsBf16 : Field := ⟨0x2, 0x118, 16, 8, 40, .rw, 0, 2 ^ 8 - 1, false⟩
def pwrAmpsFp32 : Field := ⟨0x2, 0x118, 24, 8, 33, .rw, 0, 2 ^ 8 - 1, false⟩
def pwrAmpsIdleAmps : Field := ⟨0x2, 0x118, 32, 10, 19, .rw, 0, 2 ^ 10 - 1, false⟩
def pwrAmpsBusyAmps : Field := ⟨0x2, 0x118, 48, 10, 387, .rw, 0, 2 ^ 10 - 1, false⟩
def pwrThrCtlFloor : Field := ⟨0x2, 0x120, 0, 4, 0, .rw, 0, 2 ^ 4 - 1, false⟩
def pwrThrCtlHost : Field := ⟨0x2, 0x120, 8, 4, 0, .ro, 0, 2 ^ 4 - 1, false⟩
def pwrThrCtlEffective : Field := ⟨0x2, 0x120, 16, 4, 0, .view, 0, 2 ^ 4 - 1, false⟩
def pwrCurEstAmps : Field := ⟨0x2, 0x128, 0, 16, 19, .ro, 0, 2 ^ 16 - 1, false⟩
def pwrArrLevel0Levels : Field := ⟨0x2, 0x130, 0, 64, 0, .view, 0, 2 ^ 64 - 1, false⟩
def pwrArrLevel1Levels : Field := ⟨0x2, 0x138, 0, 32, 0, .view, 0, 2 ^ 32 - 1, false⟩
def pwrRampsUp : Field := ⟨0x2, 0x140, 0, 32, 0, .ro, 0, 2 ^ 32 - 1, false⟩
def pwrRampsDown : Field := ⟨0x2, 0x140, 32, 32, 0, .ro, 0, 2 ^ 32 - 1, false⟩
def pwrSkippedCount : Field := ⟨0x2, 0x148, 0, 48, 0, .ro, 0, 2 ^ 48 - 1, false⟩
def pwrGovWaitCount : Field := ⟨0x2, 0x150, 0, 48, 0, .ro, 0, 2 ^ 48 - 1, false⟩

/-- The page-specific fields of PWR. -/
def pwrFields : List Field :=
  [pwrStateCtlTarget, pwrStateCtlDrainMode, pwrState, pwrStateRestartPending, pwrStateKeepWait, pwrStateClkReq, pwrStateClkAck, pwrBudgetLimit, pwrBudgetHost, pwrBudgetEffective, pwrAmpsFp4, pwrAmpsFp8, pwrAmpsBf16, pwrAmpsFp32, pwrAmpsIdleAmps, pwrAmpsBusyAmps] ++
  [pwrThrCtlFloor, pwrThrCtlHost, pwrThrCtlEffective, pwrCurEstAmps, pwrArrLevel0Levels, pwrArrLevel1Levels, pwrRampsUp, pwrRampsDown, pwrSkippedCount, pwrGovWaitCount]

/-! ### RAS -/

def rasScrubCtlEnable : Field := ⟨0x3, 0x100, 0, 1, 1, .rw, 0, 2 ^ 1 - 1, false⟩
def rasScrubCtlIntervalLog2 : Field := ⟨0x3, 0x100, 4, 4, 10, .rw, 6, 15, false⟩
def rasScrubStatPasses : Field := ⟨0x3, 0x108, 0, 32, 0, .ro, 0, 2 ^ 32 - 1, false⟩
def rasBucketCtlDepth : Field := ⟨0x3, 0x110, 0, 5, 16, .rw, 1, 31, false⟩
def rasBucketCtlLeakLog2 : Field := ⟨0x3, 0x110, 8, 5, 20, .rw, 10, 30, false⟩
def rasClassSelClass : Field := ⟨0x3, 0x118, 0, 4, 0, .rw, 0, 12, false⟩
def rasClassStatLevel : Field := ⟨0x3, 0x120, 0, 5, 0, .view, 0, 2 ^ 5 - 1, false⟩
def rasClassStatCe : Field := ⟨0x3, 0x120, 8, 32, 0, .view, 0, 2 ^ 32 - 1, false⟩
def rasClassStatUe : Field := ⟨0x3, 0x120, 40, 16, 0, .view, 0, 2 ^ 16 - 1, false⟩
def rasClassStatOvf : Field := ⟨0x3, 0x120, 56, 8, 0, .view, 0, 2 ^ 8 - 1, false⟩
def rasOvfMaskClasses : Field := ⟨0x3, 0x128, 0, 13, 0, .w1c, 0, 2 ^ 13 - 1, false⟩
def rasLogHeadCount : Field := ⟨0x3, 0x130, 0, 32, 0, .ro, 0, 2 ^ 32 - 1, false⟩
def rasLogTailCount : Field := ⟨0x3, 0x138, 0, 32, 0, .rw, 0, 2 ^ 32 - 1, false⟩
def rasLogLostCe : Field := ⟨0x3, 0x140, 0, 32, 0, .ro, 0, 2 ^ 32 - 1, false⟩
def rasLogLostUe : Field := ⟨0x3, 0x140, 32, 32, 0, .ro, 0, 2 ^ 32 - 1, false⟩
def rasLogSelIndex : Field := ⟨0x3, 0x148, 0, 8, 0, .rw, 0, 2 ^ 8 - 1, false⟩
def rasLogSelInc : Field := ⟨0x3, 0x148, 8, 1, 0, .rw, 0, 2 ^ 1 - 1, false⟩
def rasLogDataData (i : Nat) : Field := ⟨0x3, (0x150 + 8 * i), 0, 64, 0, .view, 0, 2 ^ 64 - 1, false⟩
def rasBankSelBank : Field := ⟨0x3, 0x170, 0, 5, 0, .rw, 0, 2 ^ 5 - 1, false⟩
def rasBankCntCe : Field := ⟨0x3, 0x178, 0, 32, 0, .view, 0, 2 ^ 32 - 1, false⟩
def rasBankCntUe : Field := ⟨0x3, 0x178, 32, 16, 0, .view, 0, 2 ^ 16 - 1, false⟩
def rasArrFailArrays : Field := ⟨0x3, 0x180, 0, 24, 0, .w1c, 0, 2 ^ 24 - 1, false⟩
def rasStateLostLedger : Field := ⟨0x3, 0x188, 0, 1, 0, .ro, 0, 2 ^ 1 - 1, false⟩
def rasStateLostAdvisor : Field := ⟨0x3, 0x188, 1, 1, 0, .ro, 0, 2 ^ 1 - 1, false⟩
def rasStateLostStaged : Field := ⟨0x3, 0x188, 2, 1, 0, .ro, 0, 2 ^ 1 - 1, false⟩
def rasStateLostStats : Field := ⟨0x3, 0x188, 3, 1, 0, .ro, 0, 2 ^ 1 - 1, false⟩

/-- The page-specific fields of RAS. -/
def rasFields : List Field :=
  [rasScrubCtlEnable, rasScrubCtlIntervalLog2, rasScrubStatPasses, rasBucketCtlDepth, rasBucketCtlLeakLog2, rasClassSelClass, rasClassStatLevel, rasClassStatCe, rasClassStatUe, rasClassStatOvf, rasOvfMaskClasses, rasLogHeadCount, rasLogTailCount, rasLogLostCe, rasLogLostUe, rasLogSelIndex] ++
  [rasLogSelInc, rasLogDataData 0, rasLogDataData 1, rasLogDataData 2, rasLogDataData 3, rasBankSelBank, rasBankCntCe, rasBankCntUe, rasArrFailArrays, rasStateLostLedger, rasStateLostAdvisor, rasStateLostStaged, rasStateLostStats]

/-! ### TRC -/

def trcRingBaseAddr : Field := ⟨0x4, 0x100, 0, 64, 0, .rw, 0, 2 ^ 64 - 1, false⟩
def trcRingCtlSizeLog2 : Field := ⟨0x4, 0x108, 0, 5, 0, .rw, 8, 24, true⟩
def trcSrcEnSources : Field := ⟨0x4, 0x110, 0, 9, 0, .rw, 0, 2 ^ 9 - 1, false⟩
def trcHeadCount : Field := ⟨0x4, 0x118, 0, 32, 0, .ro, 0, 2 ^ 32 - 1, false⟩
def trcTailCount : Field := ⟨0x4, 0x120, 0, 32, 0, .rw, 0, 2 ^ 32 - 1, false⟩
def trcDroppedFull : Field := ⟨0x4, 0x128, 0, 32, 0, .ro, 0, 2 ^ 32 - 1, false⟩
def trcDroppedBacklog : Field := ⟨0x4, 0x128, 32, 16, 0, .ro, 0, 2 ^ 16 - 1, false⟩
def trcDroppedAsleep : Field := ⟨0x4, 0x128, 48, 16, 0, .ro, 0, 2 ^ 16 - 1, false⟩
def trcMarkValue : Field := ⟨0x4, 0x130, 0, 64, 0, .wo, 0, 2 ^ 64 - 1, false⟩
def trcFifoLevel : Field := ⟨0x4, 0x138, 0, 7, 0, .view, 0, 2 ^ 7 - 1, false⟩

/-- The page-specific fields of TRC. -/
def trcFields : List Field :=
  [trcRingBaseAddr, trcRingCtlSizeLog2, trcSrcEnSources, trcHeadCount, trcTailCount, trcDroppedFull, trcDroppedBacklog, trcDroppedAsleep, trcMarkValue, trcFifoLevel]

/-! ### TST -/

def tstBistStatState : Field := ⟨0x5, 0x100, 0, 2, 0, .view, 0, 2 ^ 2 - 1, false⟩
def tstBistStatLastStatus : Field := ⟨0x5, 0x100, 8, 8, 0, .ro, 0, 2 ^ 8 - 1, false⟩
def tstBistStatRuns : Field := ⟨0x5, 0x100, 16, 32, 0, .ro, 0, 2 ^ 32 - 1, false⟩
def tstSigExpArraySig : Field := ⟨0x5, 0x108, 0, 64, 11402342087350854385, .const, 0, 2 ^ 64 - 1, false⟩
def tstSigExpCoreSig : Field := ⟨0x5, 0x110, 0, 64, 2865653903747529614, .const, 0, 2 ^ 64 - 1, false⟩
def tstMisrSelUnit : Field := ⟨0x5, 0x118, 0, 5, 0, .rw, 0, 29, false⟩
def tstMisrDataMisr : Field := ⟨0x5, 0x120, 0, 64, 0, .view, 0, 2 ^ 64 - 1, false⟩
def tstMemSelUnit : Field := ⟨0x5, 0x128, 0, 6, 0, .rw, 0, 62, false⟩
def tstMemStatCount : Field := ⟨0x5, 0x130, 0, 16, 0, .view, 0, 2 ^ 16 - 1, false⟩
def tstMemStatClass : Field := ⟨0x5, 0x130, 16, 8, 0, .view, 0, 2 ^ 8 - 1, false⟩
def tstMemStatWord : Field := ⟨0x5, 0x130, 24, 40, 0, .view, 0, 2 ^ 40 - 1, false⟩

/-- The page-specific fields of TST. -/
def tstFields : List Field :=
  [tstBistStatState, tstBistStatLastStatus, tstBistStatRuns, tstSigExpArraySig, tstSigExpCoreSig, tstMisrSelUnit, tstMisrDataMisr, tstMemSelUnit, tstMemStatCount, tstMemStatClass, tstMemStatWord]

/-! ### LDG -/

def ldgSlotSelSlot : Field := ⟨0x6, 0x100, 0, 12, 0, .rw, 0, 2 ^ 12 - 1, false⟩
def ldgSlotStatGen : Field := ⟨0x6, 0x108, 0, 8, 0, .view, 0, 2 ^ 8 - 1, false⟩
def ldgSlotStatState : Field := ⟨0x6, 0x108, 8, 2, 0, .view, 0, 2 ^ 2 - 1, false⟩
def ldgSlotStatNfSeen : Field := ⟨0x6, 0x108, 10, 1, 0, .view, 0, 2 ^ 1 - 1, false⟩
def ldgSlotStatMendSeen : Field := ⟨0x6, 0x108, 11, 1, 0, .view, 0, 2 ^ 1 - 1, false⟩
def ldgSlotCnt0Rows : Field := ⟨0x6, 0x110, 0, 32, 0, .view, 0, 2 ^ 32 - 1, false⟩
def ldgSlotCnt0Stale : Field := ⟨0x6, 0x110, 32, 32, 0, .view, 0, 2 ^ 32 - 1, false⟩
def ldgSlotCnt1Cancelled : Field := ⟨0x6, 0x118, 0, 32, 0, .view, 0, 2 ^ 32 - 1, false⟩
def ldgSlotCnt1Quar : Field := ⟨0x6, 0x118, 32, 32, 0, .view, 0, 2 ^ 32 - 1, false⟩
def ldgSlotCnt2Marked : Field := ⟨0x6, 0x120, 0, 32, 0, .view, 0, 2 ^ 32 - 1, false⟩
def ldgSlotCnt2Mended : Field := ⟨0x6, 0x120, 32, 32, 0, .view, 0, 2 ^ 32 - 1, false⟩
def ldgSummaryQuarSlots : Field := ⟨0x6, 0x128, 0, 13, 0, .view, 0, 2 ^ 13 - 1, false⟩
def ldgSummaryCancSlots : Field := ⟨0x6, 0x128, 16, 13, 0, .view, 0, 2 ^ 13 - 1, false⟩
def ldgSummaryNfSlots : Field := ⟨0x6, 0x128, 32, 13, 0, .view, 0, 2 ^ 13 - 1, false⟩
def ldgAnonRowsCount : Field := ⟨0x6, 0x130, 0, 48, 0, .ro, 0, 2 ^ 48 - 1, false⟩
def ldgBadTagsCount : Field := ⟨0x6, 0x138, 0, 32, 0, .ro, 0, 2 ^ 32 - 1, false⟩
def ldgViewStallCount : Field := ⟨0x6, 0x140, 0, 48, 0, .ro, 0, 2 ^ 48 - 1, false⟩
def ldgLateMarksCount : Field := ⟨0x6, 0x148, 0, 32, 0, .ro, 0, 2 ^ 32 - 1, false⟩

/-- The page-specific fields of LDG. -/
def ldgFields : List Field :=
  [ldgSlotSelSlot, ldgSlotStatGen, ldgSlotStatState, ldgSlotStatNfSeen, ldgSlotStatMendSeen, ldgSlotCnt0Rows, ldgSlotCnt0Stale, ldgSlotCnt1Cancelled, ldgSlotCnt1Quar, ldgSlotCnt2Marked, ldgSlotCnt2Mended, ldgSummaryQuarSlots, ldgSummaryCancSlots, ldgSummaryNfSlots, ldgAnonRowsCount, ldgBadTagsCount] ++
  [ldgViewStallCount, ldgLateMarksCount]

/-! ### FMT -/

def fmtFpCtlPolicy : Field := ⟨0x7, 0x100, 0, 2, 0, .rw, 0, 2 ^ 2 - 1, false⟩
def fmtFpCtlInnerTrap : Field := ⟨0x7, 0x100, 2, 1, 1, .rw, 0, 2 ^ 1 - 1, false⟩
def fmtSrSeedSeed : Field := ⟨0x7, 0x108, 0, 64, 0, .rw, 0, 2 ^ 64 - 1, false⟩
def fmtAdvCtlLossLog2 : Field := ⟨0x7, 0x110, 0, 5, 16, .rw, 0, 2 ^ 5 - 1, false⟩
def fmtAdvCtlNarrowHold : Field := ⟨0x7, 0x110, 8, 4, 2, .rw, 0, 2 ^ 4 - 1, false⟩
def fmtAdvAddrWord : Field := ⟨0x7, 0x118, 0, 6, 0, .rw, 0, 2 ^ 6 - 1, false⟩
def fmtAdvAddrLayer : Field := ⟨0x7, 0x118, 6, 8, 0, .rw, 0, 2 ^ 8 - 1, false⟩
def fmtAdvAddrSet : Field := ⟨0x7, 0x118, 14, 2, 0, .rw, 0, 2, false⟩
def fmtAdvAddrInc : Field := ⟨0x7, 0x118, 16, 1, 0, .rw, 0, 2 ^ 1 - 1, false⟩
def fmtAdvDataData : Field := ⟨0x7, 0x120, 0, 64, 0, .view, 0, 2 ^ 64 - 1, false⟩
def fmtStagedStep : Field := ⟨0x7, 0x128, 0, 32, 0, .view, 0, 2 ^ 32 - 1, false⟩
def fmtStagedAttempt : Field := ⟨0x7, 0x128, 32, 8, 0, .view, 0, 2 ^ 8 - 1, false⟩
def fmtAdvStaleCount : Field := ⟨0x7, 0x130, 0, 32, 0, .ro, 0, 2 ^ 32 - 1, false⟩

/-- The page-specific fields of FMT. -/
def fmtFields : List Field :=
  [fmtFpCtlPolicy, fmtFpCtlInnerTrap, fmtSrSeedSeed, fmtAdvCtlLossLog2, fmtAdvCtlNarrowHold, fmtAdvAddrWord, fmtAdvAddrLayer, fmtAdvAddrSet, fmtAdvAddrInc, fmtAdvDataData, fmtStagedStep, fmtStagedAttempt, fmtAdvStaleCount]

/-! ### TRW -/

def trwLdrSelLoader : Field := ⟨0x8, 0x100, 0, 3, 0, .rw, 0, 5, false⟩
def trwLcacheInvAll : Field := ⟨0x8, 0x108, 0, 1, 0, .wo, 0, 2 ^ 1 - 1, false⟩
def trwLcacheStatValid : Field := ⟨0x8, 0x110, 0, 7, 0, .view, 0, 2 ^ 7 - 1, false⟩
def trwLcacheStatMisses : Field := ⟨0x8, 0x110, 16, 32, 0, .ro, 0, 2 ^ 32 - 1, false⟩
def trwRdBytesCount : Field := ⟨0x8, 0x118, 0, 48, 0, .ro, 0, 2 ^ 48 - 1, false⟩
def trwWrBytesCount : Field := ⟨0x8, 0x120, 0, 48, 0, .ro, 0, 2 ^ 48 - 1, false⟩
def trwXposeBytesCount : Field := ⟨0x8, 0x128, 0, 48, 0, .ro, 0, 2 ^ 48 - 1, false⟩
def trwExtraSectorsCount : Field := ⟨0x8, 0x130, 0, 48, 0, .ro, 0, 2 ^ 48 - 1, false⟩
def trwMarkedCount : Field := ⟨0x8, 0x138, 0, 32, 0, .ro, 0, 2 ^ 32 - 1, false⟩
def trwMendedCount : Field := ⟨0x8, 0x140, 0, 32, 0, .ro, 0, 2 ^ 32 - 1, false⟩
def trwOrderedCount : Field := ⟨0x8, 0x148, 0, 32, 0, .ro, 0, 2 ^ 32 - 1, false⟩
def trwMportErrCount : Field := ⟨0x8, 0x150, 0, 16, 0, .ro, 0, 2 ^ 16 - 1, false⟩
def trwMportErrPort : Field := ⟨0x8, 0x150, 16, 4, 0, .ro, 0, 2 ^ 4 - 1, false⟩
def trwMportErrLoader : Field := ⟨0x8, 0x150, 20, 3, 0, .ro, 0, 2 ^ 3 - 1, false⟩
def trwMportErrWrite : Field := ⟨0x8, 0x150, 23, 1, 0, .ro, 0, 2 ^ 1 - 1, false⟩
def trwErrAddrAddr : Field := ⟨0x8, 0x158, 0, 64, 0, .ro, 0, 2 ^ 64 - 1, false⟩

/-- The page-specific fields of TRW. -/
def trwFields : List Field :=
  [trwLdrSelLoader, trwLcacheInvAll, trwLcacheStatValid, trwLcacheStatMisses, trwRdBytesCount, trwWrBytesCount, trwXposeBytesCount, trwExtraSectorsCount, trwMarkedCount, trwMendedCount, trwOrderedCount, trwMportErrCount, trwMportErrPort, trwMportErrLoader, trwMportErrWrite, trwErrAddrAddr]

/-! ### SCR -/

def scrFoldCtlStaleBreak : Field := ⟨0x9, 0x100, 0, 1, 0, .rw, 0, 2 ^ 1 - 1, false⟩
def scrBankLiveMask : Field := ⟨0x9, 0x108, 0, 32, 4294967295, .rw, 0, 2 ^ 32 - 1, false⟩
def scrFramesLive : Field := ⟨0x9, 0x110, 0, 10, 0, .view, 0, 2 ^ 10 - 1, false⟩
def scrFramesPinned : Field := ⟨0x9, 0x110, 16, 10, 0, .view, 0, 2 ^ 10 - 1, false⟩
def scrFramesResident : Field := ⟨0x9, 0x110, 32, 10, 0, .view, 0, 2 ^ 10 - 1, false⟩
def scrFramesHeld : Field := ⟨0x9, 0x110, 48, 5, 0, .view, 0, 2 ^ 5 - 1, false⟩
def scrDirUsed : Field := ⟨0x9, 0x118, 0, 16, 0, .view, 0, 2 ^ 16 - 1, false⟩
def scrGrpSelGroup : Field := ⟨0x9, 0x120, 0, 6, 0, .rw, 0, 2 ^ 6 - 1, false⟩
def scrGrpStatState : Field := ⟨0x9, 0x128, 0, 2, 0, .view, 0, 2 ^ 2 - 1, false⟩
def scrGrpStatPoison : Field := ⟨0x9, 0x128, 2, 1, 0, .view, 0, 2 ^ 1 - 1, false⟩
def scrGrpStatLongsum : Field := ⟨0x9, 0x128, 3, 1, 0, .view, 0, 2 ^ 1 - 1, false⟩
def scrGrpStatSurrogate : Field := ⟨0x9, 0x128, 4, 1, 0, .view, 0, 2 ^ 1 - 1, false⟩
def scrGrpStatPinned : Field := ⟨0x9, 0x128, 5, 1, 0, .view, 0, 2 ^ 1 - 1, false⟩
def scrGrpStatGen : Field := ⟨0x9, 0x128, 8, 8, 0, .view, 0, 2 ^ 8 - 1, false⟩
def scrGrpStatTiles : Field := ⟨0x9, 0x128, 16, 15, 0, .view, 0, 2 ^ 15 - 1, false⟩
def scrGrpStatStep : Field := ⟨0x9, 0x128, 32, 32, 0, .view, 0, 2 ^ 32 - 1, false⟩
def scrGrpStampTornStamp : Field := ⟨0x9, 0x130, 0, 32, 0, .view, 0, 2 ^ 32 - 1, false⟩
def scrGrpStampHighStamp : Field := ⟨0x9, 0x130, 32, 32, 0, .view, 0, 2 ^ 32 - 1, false⟩
def scrTileSelTile : Field := ⟨0x9, 0x138, 0, 14, 0, .rw, 0, 2 ^ 14 - 1, false⟩
def scrTileStatState : Field := ⟨0x9, 0x140, 0, 2, 0, .view, 0, 2 ^ 2 - 1, false⟩
def scrTileStatSpoiled : Field := ⟨0x9, 0x140, 2, 1, 0, .view, 0, 2 ^ 1 - 1, false⟩
def scrTileStatDirty : Field := ⟨0x9, 0x140, 3, 1, 0, .view, 0, 2 ^ 1 - 1, false⟩
def scrTileStatFrame : Field := ⟨0x9, 0x140, 16, 9, 0, .view, 0, 2 ^ 9 - 1, false⟩
def scrTileStatLastStamp : Field := ⟨0x9, 0x140, 32, 32, 0, .view, 0, 2 ^ 32 - 1, false⟩
def scrFoldsCount : Field := ⟨0x9, 0x148, 0, 48, 0, .ro, 0, 2 ^ 48 - 1, false⟩
def scrRefoldsCount : Field := ⟨0x9, 0x150, 0, 32, 0, .ro, 0, 2 ^ 32 - 1, false⟩
def scrStaleCount : Field := ⟨0x9, 0x158, 0, 32, 0, .ro, 0, 2 ^ 32 - 1, false⟩
def scrDroppedCount : Field := ⟨0x9, 0x160, 0, 32, 0, .ro, 0, 2 ^ 32 - 1, false⟩
def scrEvictionsCount : Field := ⟨0x9, 0x168, 0, 32, 0, .ro, 0, 2 ^ 32 - 1, false⟩
def scrFetchesCount : Field := ⟨0x9, 0x170, 0, 32, 0, .ro, 0, 2 ^ 32 - 1, false⟩
def scrSatEventsCount : Field := ⟨0x9, 0x178, 0, 32, 0, .ro, 0, 2 ^ 32 - 1, false⟩
def scrPreloadUnusedCount : Field := ⟨0x9, 0x180, 0, 32, 0, .ro, 0, 2 ^ 32 - 1, false⟩

/-- The page-specific fields of SCR. -/
def scrFields : List Field :=
  [scrFoldCtlStaleBreak, scrBankLiveMask, scrFramesLive, scrFramesPinned, scrFramesResident, scrFramesHeld, scrDirUsed, scrGrpSelGroup, scrGrpStatState, scrGrpStatPoison, scrGrpStatLongsum, scrGrpStatSurrogate, scrGrpStatPinned, scrGrpStatGen, scrGrpStatTiles, scrGrpStatStep] ++
  [scrGrpStampTornStamp, scrGrpStampHighStamp, scrTileSelTile, scrTileStatState, scrTileStatSpoiled, scrTileStatDirty, scrTileStatFrame, scrTileStatLastStamp, scrFoldsCount, scrRefoldsCount, scrStaleCount, scrDroppedCount, scrEvictionsCount, scrFetchesCount, scrSatEventsCount, scrPreloadUnusedCount]

/-! ### SIV -/

def sivSieveCtlPredExp : Field := ⟨0xa, 0x100, 0, 8, 236, .rw, 0, 2 ^ 8 - 1, false⟩
def sivSieveCtlTolExp : Field := ⟨0xa, 0x100, 8, 8, 226, .rw, 0, 2 ^ 8 - 1, false⟩
def sivHoffCtlHandoffDensity : Field := ⟨0xa, 0x108, 0, 9, 16, .rw, 0, 256, false⟩
def sivHringBaseAddr : Field := ⟨0xa, 0x110, 0, 64, 0, .rw, 0, 2 ^ 64 - 1, false⟩
def sivHringCtlSizeLog2 : Field := ⟨0xa, 0x118, 0, 5, 0, .rw, 4, 20, true⟩
def sivHringHeadIndex : Field := ⟨0xa, 0x120, 0, 32, 0, .ro, 0, 2 ^ 32 - 1, false⟩
def sivHringTailIndex : Field := ⟨0xa, 0x128, 0, 32, 0, .rw, 0, 2 ^ 32 - 1, false⟩
def sivHoffCountHandoffs : Field := ⟨0xa, 0x130, 0, 32, 0, .ro, 0, 2 ^ 32 - 1, false⟩
def sivHoffCountBlocked : Field := ⟨0xa, 0x130, 32, 32, 0, .ro, 0, 2 ^ 32 - 1, false⟩
def sivHoffStallCount : Field := ⟨0xa, 0x138, 0, 48, 0, .ro, 0, 2 ^ 48 - 1, false⟩
def sivFormLoadsSparse24 : Field := ⟨0xa, 0x140, 0, 32, 0, .ro, 0, 2 ^ 32 - 1, false⟩
def sivFormLoadsBitmap : Field := ⟨0xa, 0x140, 32, 32, 0, .ro, 0, 2 ^ 32 - 1, false⟩
def sivSieveTilesExamined : Field := ⟨0xa, 0x148, 0, 32, 0, .ro, 0, 2 ^ 32 - 1, false⟩
def sivSieveTilesCandidates : Field := ⟨0xa, 0x148, 32, 32, 0, .ro, 0, 2 ^ 32 - 1, false⟩
def sivSieveCountSkipped : Field := ⟨0xa, 0x150, 0, 32, 0, .ro, 0, 2 ^ 32 - 1, false⟩
def sivSieveCountMadeup : Field := ⟨0xa, 0x150, 32, 32, 0, .ro, 0, 2 ^ 32 - 1, false⟩
def sivCompFormsDense : Field := ⟨0xa, 0x158, 0, 21, 0, .ro, 0, 2 ^ 21 - 1, false⟩
def sivCompFormsSparse24 : Field := ⟨0xa, 0x158, 21, 21, 0, .ro, 0, 2 ^ 21 - 1, false⟩
def sivCompFormsBitmap : Field := ⟨0xa, 0x158, 42, 21, 0, .ro, 0, 2 ^ 21 - 1, false⟩

/-- The page-specific fields of SIV. -/
def sivFields : List Field :=
  [sivSieveCtlPredExp, sivSieveCtlTolExp, sivHoffCtlHandoffDensity, sivHringBaseAddr, sivHringCtlSizeLog2, sivHringHeadIndex, sivHringTailIndex, sivHoffCountHandoffs, sivHoffCountBlocked, sivHoffStallCount, sivFormLoadsSparse24, sivFormLoadsBitmap, sivSieveTilesExamined, sivSieveTilesCandidates, sivSieveCountSkipped, sivSieveCountMadeup] ++
  [sivCompFormsDense, sivCompFormsSparse24, sivCompFormsBitmap]

/-! ### SCA -/

def scaIdxCtlPolicy : Field := ⟨0xb, 0x100, 0, 2, 0, .rw, 0, 2, false⟩
def scaIdxDroppedCount : Field := ⟨0xb, 0x108, 0, 32, 0, .ro, 0, 2 ^ 32 - 1, false⟩
def scaFaultPosPos : Field := ⟨0xb, 0x110, 0, 32, 0, .ro, 0, 2 ^ 32 - 1, false⟩
def scaWindowsCount : Field := ⟨0xb, 0x118, 0, 48, 0, .ro, 0, 2 ^ 48 - 1, false⟩
def scaPairsCount : Field := ⟨0xb, 0x120, 0, 48, 0, .ro, 0, 2 ^ 48 - 1, false⟩
def scaMergedCount : Field := ⟨0xb, 0x128, 0, 48, 0, .ro, 0, 2 ^ 48 - 1, false⟩
def scaRdBytesCount : Field := ⟨0xb, 0x130, 0, 48, 0, .ro, 0, 2 ^ 48 - 1, false⟩
def scaWrBytesCount : Field := ⟨0xb, 0x138, 0, 48, 0, .ro, 0, 2 ^ 48 - 1, false⟩
def scaSatEventsCount : Field := ⟨0xb, 0x140, 0, 32, 0, .ro, 0, 2 ^ 32 - 1, false⟩
def scaBusyQueue : Field := ⟨0xb, 0x148, 0, 4, 0, .view, 0, 2 ^ 4 - 1, false⟩
def scaBusyActive : Field := ⟨0xb, 0x148, 4, 1, 0, .view, 0, 2 ^ 1 - 1, false⟩
def scaBusyWindow : Field := ⟨0xb, 0x148, 32, 32, 0, .view, 0, 2 ^ 32 - 1, false⟩

/-- The page-specific fields of SCA. -/
def scaFields : List Field :=
  [scaIdxCtlPolicy, scaIdxDroppedCount, scaFaultPosPos, scaWindowsCount, scaPairsCount, scaMergedCount, scaRdBytesCount, scaWrBytesCount, scaSatEventsCount, scaBusyQueue, scaBusyActive, scaBusyWindow]

/-! ### RSU -/

def rsuTopkCtlKeepLog2 : Field := ⟨0xc, 0x100, 0, 4, 2, .rw, 2, 8, false⟩
def rsuRecvWdogLimitMs : Field := ⟨0xc, 0x108, 0, 14, 1000, .rw, 0, 10000, false⟩
def rsuCtxStatOpen : Field := ⟨0xc, 0x110, 0, 4, 0, .view, 0, 2 ^ 4 - 1, false⟩
def rsuCtxStatWaiting : Field := ⟨0xc, 0x110, 8, 4, 0, .view, 0, 2 ^ 4 - 1, false⟩
def rsuCtxStatEvents : Field := ⟨0xc, 0x110, 16, 16, 0, .ro, 0, 2 ^ 16 - 1, false⟩
def rsuGrpRedMask : Field := ⟨0xc, 0x118, 0, 64, 0, .view, 0, 2 ^ 64 - 1, false⟩
def rsuPktSentCount : Field := ⟨0xc, 0x120, 0, 48, 0, .ro, 0, 2 ^ 48 - 1, false⟩
def rsuPktRecvCount : Field := ⟨0xc, 0x128, 0, 48, 0, .ro, 0, 2 ^ 48 - 1, false⟩
def rsuDupsCount : Field := ⟨0xc, 0x130, 0, 32, 0, .ro, 0, 2 ^ 32 - 1, false⟩
def rsuNoctxCount : Field := ⟨0xc, 0x138, 0, 32, 0, .ro, 0, 2 ^ 32 - 1, false⟩
def rsuEmptySentCount : Field := ⟨0xc, 0x140, 0, 32, 0, .ro, 0, 2 ^ 32 - 1, false⟩
def rsuDigestErrCount : Field := ⟨0xc, 0x148, 0, 16, 0, .ro, 0, 2 ^ 16 - 1, false⟩
def rsuDigestErrJob : Field := ⟨0xc, 0x148, 16, 16, 0, .ro, 0, 2 ^ 16 - 1, false⟩
def rsuDigestErrRank : Field := ⟨0xc, 0x148, 32, 16, 0, .ro, 0, 2 ^ 16 - 1, false⟩
def rsuTxBytesCount : Field := ⟨0xc, 0x150, 0, 48, 0, .ro, 0, 2 ^ 48 - 1, false⟩
def rsuRxBytesCount : Field := ⟨0xc, 0x158, 0, 48, 0, .ro, 0, 2 ^ 48 - 1, false⟩
def rsuThinKeptCount : Field := ⟨0xc, 0x160, 0, 48, 0, .ro, 0, 2 ^ 48 - 1, false⟩
def rsuFportErrCount : Field := ⟨0xc, 0x168, 0, 16, 0, .ro, 0, 2 ^ 16 - 1, false⟩
def rsuFportErrPort : Field := ⟨0xc, 0x168, 16, 2, 0, .ro, 0, 2 ^ 2 - 1, false⟩

/-- The page-specific fields of RSU. -/
def rsuFields : List Field :=
  [rsuTopkCtlKeepLog2, rsuRecvWdogLimitMs, rsuCtxStatOpen, rsuCtxStatWaiting, rsuCtxStatEvents, rsuGrpRedMask, rsuPktSentCount, rsuPktRecvCount, rsuDupsCount, rsuNoctxCount, rsuEmptySentCount, rsuDigestErrCount, rsuDigestErrJob, rsuDigestErrRank, rsuTxBytesCount, rsuRxBytesCount] ++
  [rsuThinKeptCount, rsuFportErrCount, rsuFportErrPort]

/-! ### UPD -/

def updEpochParity : Field := ⟨0xd, 0x100, 0, 1, 0, .view, 0, 2 ^ 1 - 1, false⟩
def updEpochAttempt : Field := ⟨0xd, 0x100, 8, 8, 0, .view, 0, 2 ^ 8 - 1, false⟩
def updEpochStep : Field := ⟨0xd, 0x100, 32, 32, 0, .view, 0, 2 ^ 32 - 1, false⟩
def updStageCntApplied : Field := ⟨0xd, 0x108, 0, 16, 0, .view, 0, 2 ^ 16 - 1, false⟩
def updStageCntParams : Field := ⟨0xd, 0x108, 16, 16, 0, .view, 0, 2 ^ 16 - 1, false⟩
def updStageCntPoisoned : Field := ⟨0xd, 0x108, 32, 16, 0, .view, 0, 2 ^ 16 - 1, false⟩
def updStageCntState : Field := ⟨0xd, 0x108, 48, 2, 0, .view, 0, 2 ^ 2 - 1, false⟩
def updCommitTimeTime : Field := ⟨0xd, 0x110, 0, 64, 0, .view, 0, 2 ^ 64 - 1, false⟩
def updElemsCount : Field := ⟨0xd, 0x118, 0, 48, 0, .ro, 0, 2 ^ 48 - 1, false⟩
def updNonfiniteCount : Field := ⟨0xd, 0x120, 0, 32, 0, .ro, 0, 2 ^ 32 - 1, false⟩
def updSatEventsCount : Field := ⟨0xd, 0x128, 0, 32, 0, .ro, 0, 2 ^ 32 - 1, false⟩
def updStatStaleCount : Field := ⟨0xd, 0x130, 0, 32, 0, .ro, 0, 2 ^ 32 - 1, false⟩
def updAbandonsCount : Field := ⟨0xd, 0x138, 0, 32, 0, .ro, 0, 2 ^ 32 - 1, false⟩
def updStatAddrWord : Field := ⟨0xd, 0x140, 0, 2, 0, .rw, 0, 2 ^ 2 - 1, false⟩
def updStatAddrId : Field := ⟨0xd, 0x140, 2, 8, 0, .rw, 0, 2 ^ 8 - 1, false⟩
def updStatAddrSet : Field := ⟨0xd, 0x140, 10, 1, 0, .rw, 0, 2 ^ 1 - 1, false⟩
def updStatAddrInc : Field := ⟨0xd, 0x140, 11, 1, 0, .rw, 0, 2 ^ 1 - 1, false⟩
def updStatDataData : Field := ⟨0xd, 0x148, 0, 64, 0, .view, 0, 2 ^ 64 - 1, false⟩

/-- The page-specific fields of UPD. -/
def updFields : List Field :=
  [updEpochParity, updEpochAttempt, updEpochStep, updStageCntApplied, updStageCntParams, updStageCntPoisoned, updStageCntState, updCommitTimeTime, updElemsCount, updNonfiniteCount, updSatEventsCount, updStatStaleCount, updAbandonsCount, updStatAddrWord, updStatAddrId, updStatAddrSet] ++
  [updStatAddrInc, updStatDataData]

/-! ### COR -/

def corArrMapLive (n : Nat) : Field := ⟨(0x10 + n), 0x100, 0, 4, 0, .view, 0, 2 ^ 4 - 1, false⟩
def corArrMapP0D (n : Nat) : Field := ⟨(0x10 + n), 0x100, 4, 2, 0, .view, 0, 2 ^ 2 - 1, false⟩
def corArrMapP0W (n : Nat) : Field := ⟨(0x10 + n), 0x100, 6, 2, 0, .view, 0, 2 ^ 2 - 1, false⟩
def corArrMapP1D (n : Nat) : Field := ⟨(0x10 + n), 0x100, 8, 2, 0, .view, 0, 2 ^ 2 - 1, false⟩
def corArrMapP1W (n : Nat) : Field := ⟨(0x10 + n), 0x100, 10, 2, 0, .view, 0, 2 ^ 2 - 1, false⟩
def corArrMapSingle (n : Nat) : Field := ⟨(0x10 + n), 0x100, 12, 2, 0, .view, 0, 2 ^ 2 - 1, false⟩
def corArrMapP0V (n : Nat) : Field := ⟨(0x10 + n), 0x100, 16, 1, 0, .view, 0, 2 ^ 1 - 1, false⟩
def corArrMapP1V (n : Nat) : Field := ⟨(0x10 + n), 0x100, 17, 1, 0, .view, 0, 2 ^ 1 - 1, false⟩
def corArrMapSingleV (n : Nat) : Field := ⟨(0x10 + n), 0x100, 18, 1, 0, .view, 0, 2 ^ 1 - 1, false⟩
def corArrStateStates (n : Nat) : Field := ⟨(0x10 + n), 0x108, 0, 16, 0, .view, 0, 2 ^ 16 - 1, false⟩
def corPlaneStateStates (n : Nat) : Field := ⟨(0x10 + n), 0x110, 0, 24, 0, .view, 0, 2 ^ 24 - 1, false⟩
def corWdogCtlLimitMs (n : Nat) : Field := ⟨(0x10 + n), 0x118, 0, 14, 1000, .rw, 0, 10000, false⟩
def corWdogStatArray (n : Nat) : Field := ⟨(0x10 + n), 0x120, 0, 2, 0, .ro, 0, 2 ^ 2 - 1, false⟩
def corWdogStatPatch (n : Nat) : Field := ⟨(0x10 + n), 0x120, 2, 8, 0, .ro, 0, 2 ^ 8 - 1, false⟩
def corWdogStatEvents (n : Nat) : Field := ⟨(0x10 + n), 0x120, 16, 16, 0, .ro, 0, 2 ^ 16 - 1, false⟩
def corSlotStallCount (n : Nat) : Field := ⟨(0x10 + n), 0x128, 0, 48, 0, .ro, 0, 2 ^ 48 - 1, false⟩
def corPatchStallCount (n : Nat) : Field := ⟨(0x10 + n), 0x130, 0, 48, 0, .ro, 0, 2 ^ 48 - 1, false⟩
def corFillerCount (n : Nat) : Field := ⟨(0x10 + n), 0x138, 0, 48, 0, .ro, 0, 2 ^ 48 - 1, false⟩
def corPackedCount (n : Nat) : Field := ⟨(0x10 + n), 0x140, 0, 32, 0, .ro, 0, 2 ^ 32 - 1, false⟩
def corSatEventsCount (n : Nat) : Field := ⟨(0x10 + n), 0x148, 0, 32, 0, .ro, 0, 2 ^ 32 - 1, false⟩
def corDerivSatCount (n : Nat) : Field := ⟨(0x10 + n), 0x150, 0, 32, 0, .ro, 0, 2 ^ 32 - 1, false⟩
def corRelayStallCount (n : Nat) : Field := ⟨(0x10 + n), 0x158, 0, 48, 0, .ro, 0, 2 ^ 48 - 1, false⟩
def corHodStatUsed (n : Nat) : Field := ⟨(0x10 + n), 0x160, 0, 5, 0, .view, 0, 2 ^ 5 - 1, false⟩
def corHodStatPeak (n : Nat) : Field := ⟨(0x10 + n), 0x160, 8, 5, 0, .ro, 0, 2 ^ 5 - 1, false⟩
def corHodStatFull (n : Nat) : Field := ⟨(0x10 + n), 0x160, 16, 32, 0, .ro, 0, 2 ^ 32 - 1, false⟩
def corDycHitsCount (n : Nat) : Field := ⟨(0x10 + n), 0x168, 0, 32, 0, .ro, 0, 2 ^ 32 - 1, false⟩
def corReleasedCount (n : Nat) : Field := ⟨(0x10 + n), 0x170, 0, 32, 0, .ro, 0, 2 ^ 32 - 1, false⟩
def corSbRetirePages (n : Nat) (i : Nat) : Field := ⟨(0x10 + n), (0x178 + 8 * i), 0, 64, 0, .rw, 0, 2 ^ 64 - 1, false⟩
def corSbPagesLive (n : Nat) : Field := ⟨(0x10 + n), 0x198, 0, 9, 0, .view, 0, 2 ^ 9 - 1, false⟩

/-- The page-specific fields of COR. -/
def corFields (n : Nat) : List Field :=
  [corArrMapLive n, corArrMapP0D n, corArrMapP0W n, corArrMapP1D n, corArrMapP1W n, corArrMapSingle n, corArrMapP0V n, corArrMapP1V n, corArrMapSingleV n, corArrStateStates n, corPlaneStateStates n, corWdogCtlLimitMs n, corWdogStatArray n, corWdogStatPatch n, corWdogStatEvents n, corSlotStallCount n] ++
  [corPatchStallCount n, corFillerCount n, corPackedCount n, corSatEventsCount n, corDerivSatCount n, corRelayStallCount n, corHodStatUsed n, corHodStatPeak n, corHodStatFull n, corDycHitsCount n, corReleasedCount n, corSbRetirePages n 0, corSbRetirePages n 1, corSbRetirePages n 2, corSbRetirePages n 3, corSbPagesLive n]

/-! ### QUE -/

def queRingBaseAddr (q : Nat) : Field := ⟨(0x30 + q), 0x100, 0, 64, 0, .rw, 0, 2 ^ 64 - 1, false⟩
def queRingCtlSizeLog2 (q : Nat) : Field := ⟨(0x30 + q), 0x108, 0, 5, 4, .rw, 4, 16, false⟩
def queRingCtlClass (q : Nat) : Field := ⟨(0x30 + q), 0x108, 8, 2, 3, .rw, 0, 2 ^ 2 - 1, false⟩
def queRingCtlEnable (q : Nat) : Field := ⟨(0x30 + q), 0x108, 16, 1, 0, .rw, 0, 2 ^ 1 - 1, false⟩
def queRingCtlStopOnErr (q : Nat) : Field := ⟨(0x30 + q), 0x108, 17, 1, 1, .rw, 0, 2 ^ 1 - 1, false⟩
def queRingCtlIrqAll (q : Nat) : Field := ⟨(0x30 + q), 0x108, 18, 1, 0, .rw, 0, 2 ^ 1 - 1, false⟩
def queCplBaseAddr (q : Nat) : Field := ⟨(0x30 + q), 0x110, 0, 64, 0, .rw, 0, 2 ^ 64 - 1, false⟩
def queDoorbellTail (q : Nat) : Field := ⟨(0x30 + q), 0x118, 0, 32, 0, .wo, 0, 2 ^ 32 - 1, false⟩
def queTailCount (q : Nat) : Field := ⟨(0x30 + q), 0x120, 0, 32, 0, .ro, 0, 2 ^ 32 - 1, false⟩
def queHeadCount (q : Nat) : Field := ⟨(0x30 + q), 0x128, 0, 32, 0, .ro, 0, 2 ^ 32 - 1, false⟩
def queRetiredCount (q : Nat) : Field := ⟨(0x30 + q), 0x130, 0, 32, 0, .ro, 0, 2 ^ 32 - 1, false⟩
def queQstateState (q : Nat) : Field := ⟨(0x30 + q), 0x138, 0, 2, 0, .view, 0, 2 ^ 2 - 1, false⟩
def queQstateStarted (q : Nat) : Field := ⟨(0x30 + q), 0x138, 8, 5, 0, .view, 0, 2 ^ 5 - 1, false⟩
def queQstateWait (q : Nat) : Field := ⟨(0x30 + q), 0x138, 16, 4, 0, .view, 0, 2 ^ 4 - 1, false⟩
def queErrSeq (q : Nat) : Field := ⟨(0x30 + q), 0x140, 0, 32, 0, .ro, 0, 2 ^ 32 - 1, false⟩
def queErrStatus (q : Nat) : Field := ⟨(0x30 + q), 0x140, 32, 8, 0, .ro, 0, 2 ^ 8 - 1, false⟩
def queResumeGo (q : Nat) : Field := ⟨(0x30 + q), 0x148, 0, 1, 0, .wo, 0, 2 ^ 1 - 1, false⟩
def queSetptrValue (q : Nat) : Field := ⟨(0x30 + q), 0x150, 0, 32, 0, .wo, 0, 2 ^ 32 - 1, false⟩

/-- The page-specific fields of QUE. -/
def queFields (q : Nat) : List Field :=
  [queRingBaseAddr q, queRingCtlSizeLog2 q, queRingCtlClass q, queRingCtlEnable q, queRingCtlStopOnErr q, queRingCtlIrqAll q, queCplBaseAddr q, queDoorbellTail q, queTailCount q, queHeadCount q, queRetiredCount q, queQstateState q, queQstateStarted q, queQstateWait q, queErrSeq q, queErrStatus q] ++
  [queResumeGo q, queSetptrValue q]

/-- The header fields of a page (R426). -/
def hdrFields (page : Nat) : List Field :=
  [hdrPageIdPage page, hdrPageIdInstance page, hdrPageIdLayout page, hdrStatBusy page, hdrStatIrq page,
   hdrStatUeSeen page, hdrCtlClr page, hdrCtlClrUe page, hdrEvt page, hdrEvtEn page, hdrEvtStamp page,
   hdrErrlogIndex page, hdrErrlogValid page]

/-- The page-specific fields of a page; none outside the page map (R423). -/
def ownFields (page : Nat) : List Field :=
  match page with
  | 0x00 => glbFields | 0x01 => cmdFields | 0x02 => pwrFields | 0x03 => rasFields | 0x04 => trcFields
  | 0x05 => tstFields | 0x06 => ldgFields | 0x07 => fmtFields | 0x08 => trwFields | 0x09 => scrFields
  | 0x0A => sivFields | 0x0B => scaFields | 0x0C => rsuFields | 0x0D => updFields
  | p => if 0x10 ≤ p && p < 0x16 then corFields (p - 0x10)
         else if 0x30 ≤ p && p < 0x40 then queFields (p - 0x30) else []

/-- The pages of R423. -/
def pageExists (page : Nat) : Bool := page < 0x0E || (0x10 ≤ page && page < 0x16) || (0x30 ≤ page && page < 0x40)

/-- The pages that answer in KEEP (R24): GLB, PWR and RAS. -/
def pageInKeep (page : Nat) : Bool := page == 0x00 || page == 0x02 || page == 0x03

/-- The fields of the register at `off` of `page`. -/
def regFields (page off : Nat) : List Field :=
  (hdrFields page ++ ownFields page).filter (fun f => f.off == off)

/-- PAGE_CAP.EVT_IMPL (R427). -/
def evtImpl (page : Nat) : Nat :=
  match page with
  | 0x00 => 0x7F03 | 0x01 => 0x0303 | 0x02 => 0x0F03 | 0x03 => 0x0703 | 0x04 => 0x0103 | 0x05 => 0x0303
  | 0x06 => 0x0303 | 0x07 => 0x0103 | 0x08 => 0x0103 | 0x09 => 0x0703 | 0x0A => 0x0303 | 0x0B => 0x0303
  | 0x0C => 0x0303 | 0x0D => 0x0703
  | p => if 0x10 ≤ p && p < 0x16 then 0x0103 else 0x0303

/-- PAGE_CAP.LAST_OFFSET (R427). -/
def lastOffset (page : Nat) : Nat :=
  match page with
  | 0x00 => 0x190 | 0x01 => 0x128 | 0x02 => 0x150 | 0x03 => 0x188 | 0x04 => 0x138 | 0x05 => 0x130
  | 0x06 => 0x148 | 0x07 => 0x130 | 0x08 => 0x158 | 0x09 => 0x180 | 0x0A => 0x158 | 0x0B => 0x148
  | 0x0C => 0x168 | 0x0D => 0x148
  | p => if 0x10 ≤ p && p < 0x16 then 0x198 else 0x150

/-- PAGE_CAP.VECTOR (R397, R427). -/
def pageVector (page : Nat) : Nat :=
  if page == 0x00 || page == 0x02 then 2 else if page == 0x03 then 1 else if 0x30 ≤ page then 0 else 3

/-- The PAGE_CAP word of a page (R427). -/
def pageCap (page : Nat) : Nat :=
  evtImpl page + lastOffset page * 2 ^ 32 + pageVector page * 2 ^ 48 + (if pageInKeep page then 2 ^ 56 else 0)

end Sys2Proof.Machine
end

