-- ==== Sys2Proof/Machine/Flags.lean ====
section
/-! DEFINITION. Status codes (R320), FLAGS bits (R321) and page event bits (R429). -/

namespace Sys2Proof.Machine

def stOK : Nat := 0x00
def stBadOpcode : Nat := 0x01
def stBadEncoding : Nat := 0x02
def stBadClass : Nat := 0x03
def stBadFormat : Nat := 0x04
def stBadShape : Nat := 0x05
def stBadLayout : Nat := 0x06
def stAddrRange : Nat := 0x07
def stBadDeriv : Nat := 0x08
def stBadForm : Nat := 0x09
def stBadTile : Nat := 0x0A
def stBadStamp : Nat := 0x0B
def stBadSeq : Nat := 0x0C
def stBadJob : Nat := 0x0D
def stBadParam : Nat := 0x0E
def stBadHyper : Nat := 0x0F
def stBadImage : Nat := 0x10
def stBadStep : Nat := 0x11
def stNoArrays : Nat := 0x12
def stNoGroup : Nat := 0x13
def stDirFull : Nat := 0x14
def stScreedFull : Nat := 0x15
def stNoSpace : Nat := 0x16
def stGroupTorn : Nat := 0x17
def stGroupBroken : Nat := 0x18
def stGroupReset : Nat := 0x19
def stAbandoned : Nat := 0x1A
def stStepCommitted : Nat := 0x1B
def stAdvStep : Nat := 0x1C
def stNotReduced : Nat := 0x1D
def stAlreadyReduced : Nat := 0x1E
def stIncomplete : Nat := 0x1F
def stPoisoned : Nat := 0x20
def stStepMismatch : Nat := 0x21
def stColocated : Nat := 0x22
def stFpTrap : Nat := 0x23
def stIdxFault : Nat := 0x24
def stDigestMismatch : Nat := 0x25
def stMportError : Nat := 0x26
def stFportError : Nat := 0x27
def stFault : Nat := 0x28
def stFlushed : Nat := 0x29

/-- FLAGS masks of R321. -/
def flPoison : Nat := 0x001
def flLongsum : Nat := 0x002
def flSurrogate : Nat := 0x004
def flEmpty : Nat := 0x008
def flRefold : Nat := 0x010
def flStale : Nat := 0x020
def flHandoff : Nat := 0x040
def flSieved : Nat := 0x080
def flParity : Nat := 0x100

/-- The mask when the condition holds, else nothing. -/
def flagIf (b : Bool) (m : Nat) : Nat := if b then m else 0

/-- An event of R429: its page and bit. -/
structure Ev where
  page : Nat
  bit  : Nat
  deriving DecidableEq, Repr

def evLockedWrite (page : Nat) : Ev := ⟨page, 0⟩
def evBadValue (page : Nat) : Ev := ⟨page, 1⟩
def evRiskFired : Ev := ⟨0x00, 8⟩
def evRiskUnarmed : Ev := ⟨0x00, 9⟩
def evColocated : Ev := ⟨0x00, 10⟩
def evPortProto : Ev := ⟨0x00, 11⟩
def evTbStep : Ev := ⟨0x00, 12⟩
def evTbLost : Ev := ⟨0x00, 13⟩
def evMapBad : Ev := ⟨0x00, 14⟩
def evRestart : Ev := ⟨0x02, 8⟩
def evClkSlow : Ev := ⟨0x02, 9⟩
def evClkLost : Ev := ⟨0x02, 10⟩
def evStateChg : Ev := ⟨0x02, 11⟩
def evCeOvf : Ev := ⟨0x03, 8⟩
def evUe : Ev := ⟨0x03, 9⟩
def evLogFull : Ev := ⟨0x03, 10⟩
def evClass0Over : Ev := ⟨0x01, 8⟩
def evBadDoorbell : Ev := ⟨0x01, 9⟩
def evCpl (q : Nat) : Ev := ⟨0x30 + q, 8⟩
def evHalt (q : Nat) : Ev := ⟨0x30 + q, 9⟩
def evStarve (n : Nat) : Ev := ⟨0x10 + n, 8⟩
def evTrcDrop : Ev := ⟨0x04, 8⟩
def evBistDone : Ev := ⟨0x05, 8⟩
def evBistFail : Ev := ⟨0x05, 9⟩
def evQuar : Ev := ⟨0x06, 8⟩
def evBadTag : Ev := ⟨0x06, 9⟩
def evAdvStale : Ev := ⟨0x07, 8⟩
def evMportErr : Ev := ⟨0x08, 8⟩
def evTorn : Ev := ⟨0x09, 8⟩
def evBroken : Ev := ⟨0x09, 9⟩
def evPoison : Ev := ⟨0x09, 10⟩
def evHoff : Ev := ⟨0x0A, 8⟩
def evHoffFull : Ev := ⟨0x0A, 9⟩
def evIdxDrop : Ev := ⟨0x0B, 8⟩
def evIdxFault : Ev := ⟨0x0B, 9⟩
def evRecvWait : Ev := ⟨0x0C, 8⟩
def evDigest : Ev := ⟨0x0C, 9⟩
def evFlip : Ev := ⟨0x0D, 8⟩
def evAbandon : Ev := ⟨0x0D, 9⟩
def evNonfinite : Ev := ⟨0x0D, 10⟩

end Sys2Proof.Machine
end

