-- ==== Sys2Proof/Machine/State.lean ====
section
/-! DEFINITION. The state of the block as plain data, its reset, and the reasons a step can stop. -/

namespace Sys2Proof.Machine

/-- The ways the block stops: none. Every command of the table has an effect in every state. -/
inductive Fault where
  deriving DecidableEq, Repr

/-- The ways the model declines a command. -/
inductive Refusal where
  /-- Raised by the arm of a command that has no meaning yet. Safe. -/
  | notModelled (mnemonic : String)
  deriving DecidableEq, Repr

/-! ### Command processor (12_command_processor) -/

/-- The queue states of R297. -/
inductive QState where
  | disabled
  | running
  | halted
  | draining
  deriving DecidableEq, Repr

/-- A fetched descriptor that has not started (R296): its bytes once they have arrived, whether the fetch or a record fetch failed, its
doorbell instant, and the bytes of its records that have been fetched (R176, R300). -/
structure Fetched where
  seq     : Nat
  desc    : Option (List Byte)
  failed  : Bool
  recFail : List Nat
  bell    : Nat
  recs    : List Host.Cell
  deriving DecidableEq, Repr

/-- One queue beside its registers (R293 to R297): the state, ENABLE rewritten during a drain, the doorbell
instants as (TAIL written, time), the fetched descriptors in SEQ order. -/
structure Queue where
  state   : QState
  again   : Bool
  bells   : List (Nat × Nat)
  fetched : List Fetched
  deriving DecidableEq, Repr

/-- The determining fields a command has latched (R431). -/
structure Latched where
  policy     : Nat
  innerTrap  : Bool
  seed       : Nat
  idxPolicy  : Nat
  predExp    : Nat
  tolExp     : Nat
  density    : Nat
  keepLog2   : Nat
  staleBreak : Bool
  deriving DecidableEq, Repr

/-- A slot record of the sample ledger (R224); STATE is 0 LIVE, 1 CANCELLED, 2 QUARANTINED. -/
structure LSlot where
  gen       : Nat
  state     : Nat
  nfSeen    : Bool
  mendSeen  : Bool
  rows      : Nat
  stale     : Nat
  cancelled : Nat
  quar      : Nat
  marked    : Nat
  mended    : Nat
  deriving DecidableEq, Repr

/-- A slot after reset (R224). -/
def lslotReset : LSlot := ⟨0, 0, false, false, 0, 0, 0, 0, 0, 0⟩

/-- Advisor counts (R76): the absolute and relative histograms and the other counters. -/
structure AdvCounts where
  abs       : List (Nat × Nat)
  rel       : List (Nat × Nat)
  zero      : Nat
  nonfinite : Nat
  foldNz    : Nat
  foldLo    : Nat
  foldHi    : Nat
  screenNf  : Nat
  deriving DecidableEq, Repr

def advCountsZero : AdvCounts := ⟨[], [], 0, 0, 0, 0, 0, 0⟩

/-- The phase of a started command: its unit has it, its parts have ended, its record is being written. -/
inductive Phase where
  | started
  | begun
  | ended
  | recorded
  deriving DecidableEq, Repr

/-- The kinds of tile a product command works on: an output tile in stationary mode, a dW or an adapter dB tile
in outer-product mode (R89, R90, R139). -/
inductive ItemKind where
  | stat
  | dw
  | db
  deriving DecidableEq, Repr

/-- How far the work on a tile has come: not begun, its products done and its plane waiting (FOLDING or an edge
result not stored), or finished. -/
inductive ItemState where
  | todo
  | active
  | summed
  | done
  deriving DecidableEq, Repr

/-- One tile of a product command: its kind, its grid position, the lane and the array it was dealt to (R123, R128). -/
structure Item where
  kind  : ItemKind
  r     : Nat
  c     : Nat
  lane  : Nat
  array : Nat
  st    : ItemState
  deriving DecidableEq, Repr

/-- A Sieve decision on an output tile of the guarded command (R217, R219). -/
inductive SieveMark where
  | compute
  | candidate
  | skipped
  | makeup
  deriving DecidableEq, Repr

/-- A quarantine mark (slot, generation) held until the command has screened its last row (R228). -/
abbrev QMark := Nat × Nat

/-- A started command that has not retired (R307, R316, R317). `key` is queue * 2^32 + SEQ; the fired armed SNAP has
queue 16. `errs` holds (core, status) of parts that ended in error, `asked` how many parts of its operands have been asked
for, `pack` the commands that share its row window and `window` its first row there (R113), `husked` the screened rows that take no part, `fetched` how many tiles its Sieve has decided on,
`time` when it started, `image` the bytes of the image that a SNAP has captured so far, `outRec` the address of the store's layout record (R302), `hoff` whether tiles may be handed off (R213), `refused` whether it failed a check of R300, `recs` the records read at the start, by address (R174, R247, R277). -/
structure Cmd where
  key      : Nat
  desc     : List Byte
  lat      : Latched
  bell     : Nat
  attempt  : Nat
  gens     : List (Nat × Nat)
  view     : Option (List (Nat × LSlot))
  phase    : Phase
  status   : Nat
  flags    : Nat
  result   : Nat
  errs     : List (Nat × Nat)
  items    : List Item
  screened : Nat
  fetched  : Nat
  marks    : List QMark
  trapRow  : Option (Nat × Nat)
  adv      : AdvCounts
  sieve    : List (Nat × SieveMark)
  guard    : Option Nat
  saved    : Bool
  packed   : Bool
  refused  : Bool
  window   : Nat
  pack     : List Nat
  husked   : List Nat
  asked    : Nat
  time     : Nat
  image    : List Byte
  aux      : List (Nat × Nat)
  outRec   : Nat
  hoff     : Bool
  recs     : List (Nat × List Byte)
  deriving DecidableEq, Repr

/-- What an M-port request is for (R385, R386): of a command the loader or unit (`core`) and, for a read, the part of the operands. -/
inductive MPurpose where
  | descriptor (q seq : Nat)
  | record (q seq off : Nat)
  | completion (key : Nat)
  | snapDesc
  | snapRecord
  | cmdRead (key core part : Nat)
  | cmdWrite (key core : Nat)
  | handoff (key : Nat)
  deriving DecidableEq, Repr

/-- Bytes that M-port reads have brought in for a command and that its unit holds until they are used: those of loader `core` lie in the
stage buffer of that core, where they take `size` bytes in their staged form (R7, R186); 7 is a unit of its own. -/
structure Staged where
  key   : Nat
  core  : Nat
  part  : Nat
  size  : Nat
  cells : List Host.Cell
  deriving DecidableEq, Repr

/-- One M-port request (R385): `strobes` are the runs of bytes it covers, for a write those whose strobes are set. -/
structure MReq where
  port    : Nat
  tag     : Nat
  rsv     : Bool
  write   : Bool
  addr    : Nat
  len     : Nat
  strobes : List (Nat × Nat)
  why     : MPurpose
  deriving DecidableEq, Repr

/-! ### Product arrays (04_product_arrays, 05_gradient_pair) -/

/-- The plane states of R99. -/
inductive PlaneState where
  | free
  | active
  | folding
  | saving
  | loading
  deriving DecidableEq, Repr

/-- The rows of a plane that belong to one command: its tile of the walk, the first row and the number of rows, its stamp, the place of the tile of
the directory they fold into (none for a result that leaves at the edge) and the tile index (R114). -/
structure PlanePart where
  key   : Nat
  item  : Nat
  off   : Nat
  rows  : Nat
  stamp : Nat
  fold  : Option Nat
  tile  : Nat
  deriving DecidableEq, Repr

/-- A plane: its state, its AF48 entries by row * 256 + column (absent entries +0), its cell-step count (R61), the command and tile of its pass, the
parts of its rows, whether a LOADING image is complete, the address in the save area its image comes from (0: from elsewhere), the resume point
as window, K-block and row group (R168). -/
structure Plane where
  state   : PlaneState
  entries : List (Nat × BitVec 48)
  count   : Nat
  key     : Nat
  item    : Nat
  parts   : List PlanePart
  loaded  : Bool
  src     : Nat
  resume  : Nat × Nat × Nat
  deriving DecidableEq, Repr

def planeFree : Plane := ⟨.free, [], 0, 0, 0, [], false, 0, (0, 0, 0)⟩

/-- A weight slot: its format tag (code, MX, TEXP) and the tile it holds, 16 bits a cell by row * 256 + column, the 2-bit codes of its select
store (R208), with the command, the strip and the K-blocks it was loaded for (R85, R86). -/
structure WSlot where
  full  : Bool
  code  : Nat
  mx    : Bool
  texp  : Int
  cells : List (Nat × Nat)
  sel   : List (Nat × Nat)
  key   : Nat
  strip : Nat
  kbs   : List Nat
  deriving DecidableEq, Repr

def wslotEmpty : WSlot := ⟨false, 0, false, 0, [], [], 0, 0, []⟩

/-- A run of one window through one slot load, or of one window of an outer product (R87, R208, R210): the window and the K-blocks. -/
abbrev Stage := Nat × List Nat

/-- A pass of a tile on an array: its command and tile, the parts of its rows, the stages still to be issued (the first of them in part), the
row groups issued of that one, and the k of its row groups. -/
structure Pass where
  key    : Nat
  item   : Nat
  parts  : List PlanePart
  stages : List Stage
  grp    : Nat
  k      : Nat
  deriving DecidableEq, Repr

/-- A row group in an array (R87): the pass and stage it is of, its number there, whether its sums leave at the edge after it, its slot bit and
plane bit, the patches that have done it and the sums between segments by row * 256 + output. -/
structure RowGrp where
  key    : Nat
  item   : Nat
  stage  : Stage
  grp    : Nat
  last   : Bool
  slotB  : Bool
  planeB : Bool
  done   : List Nat
  sums   : List (Nat × BitVec 48)
  deriving DecidableEq, Repr

/-- One product array (R85 to R106): whether it is clocked at all, its ramp level 0 to 15, whether its filler has outrun the bridge (R105), the
front slot bit, its slots and planes, the plane that was last made ACTIVE, the passes it runs and the row groups in it, both in issue order, the starved patches not yet re-armed, and
the k of the last row group issued (R355). -/
structure ArraySt where
  on      : Bool
  level   : Nat
  filler  : Bool
  slotF   : Bool
  slot0   : WSlot
  slot1   : WSlot
  planeA  : Plane
  planeB  : Plane
  lastB   : Bool
  passes  : List Pass
  groups  : List RowGrp
  starved : List Nat
  k       : Nat
  deriving DecidableEq, Repr

/-- An array with no power: gated, planes FREE, slots empty. -/
def arrayReset : ArraySt := ⟨false, 15, false, false, wslotEmpty, wslotEmpty, planeFree, planeFree, true, [], [], [], 1⟩

/-- A carry tile waiting in the hod (R126): command, strip, window, next K-block, cell-step count, entries; for one of a saved PAIR the address of
its image in the save area (R129). -/
structure HodTile where
  key     : Nat
  strip   : Nat
  window  : Nat
  kb      : Nat
  count   : Nat
  src     : Nat
  entries : List (Nat × BitVec 48)
  deriving DecidableEq, Repr

/-- What preemption has saved of a command on one array (R101, R129): the pass with the stages it still has, and the plane as it stood, its
entries in the save area. -/
structure Saved where
  key   : Nat
  array : Nat
  pass  : Option Pass
  plane : Option Plane
  deriving DecidableEq, Repr

/-! ### The Screed (06_screed) -/

/-- The group states of R152. -/
inductive GState where
  | free
  | open
  | torn
  | broken
  deriving DecidableEq, Repr

/-- An accumulation group (R147, R150, R152); `abandoned` says whether GEN last moved by an ABANDON (R159),
`reduced` is its bit of RSU.GRP_RED (R265). -/
structure Group where
  state     : GState
  step      : Nat
  seed      : Nat
  gen       : Nat
  torn      : Nat
  rows      : Nat
  cols      : Nat
  homeAddr  : Nat
  homePitch : Nat
  homeFmt   : Nat
  init      : Bool
  rnd       : Nat
  sat       : Bool
  tid       : Nat
  poison    : Bool
  longsum   : Bool
  surrogate : Bool
  abandoned : Bool
  reduced   : Bool
  deriving DecidableEq, Repr

def groupFree : Group :=
  ⟨.free, 0, 0, 0, 0, 0, 0, 0, 0, 0, false, 0, false, 0, false, false, false, false, false⟩

/-- The tile states of R149. -/
inductive TState where
  | untouched
  | resident
  | home
  deriving DecidableEq, Repr

/-- A tile directory entry (R149) with the instant of its last access (R164). -/
structure TileDir where
  state   : TState
  frame   : Nat
  dirty   : Bool
  stamp   : Nat
  spoiled : Bool
  access  : Nat
  deriving DecidableEq, Repr

def tileEmpty : TileDir := ⟨.untouched, 0, false, 0, false, 0⟩

/-- A preload binding (R167): queue, stamp, group, tile, the frame that holds it, its rows and values. -/
structure Preload where
  q       : Nat
  stamp   : Nat
  group   : Nat
  tile    : Nat
  owner   : Nat
  rows    : Nat
  entries : List (Nat × BitVec 48)
  deriving DecidableEq, Repr

/-- A divert binding (R167): queue, stamp, group, tile, address of the plane record. -/
structure Divert where
  q     : Nat
  stamp : Nat
  group : Nat
  tile  : Nat
  owner : Nat
  addr  : Nat
  deriving DecidableEq, Repr

/-- A fold in progress (R153, R154): array, plane, command, item, group, tile, stamp, latched GEN. -/
structure FoldRun where
  array : Nat
  plane : Bool
  key   : Nat
  item  : Nat
  group : Nat
  tile  : Nat
  stamp : Nat
  gen   : Nat
  deriving DecidableEq, Repr

/-! ### Advisor, statistics and epoch (03, 11) -/

/-- A layer's choices (R80, R82). -/
structure AdvLive where
  dxLive      : Nat
  dxPending   : Nat
  dxCount     : Nat
  homeLive    : Nat
  homePending : Nat
  homeCount   : Nat
  deriving DecidableEq, Repr

/-- One advisor layer: config masks, live choices, the evaluation of the staged record, the committed and staged
counts, the config that was in force at the last commit, and whether an evaluation is outstanding. -/
structure AdvLayer where
  dxMask    : Nat
  homeMask  : Nat
  live      : AdvLive
  staged    : AdvLive
  comMask   : Nat × Nat
  comCounts : AdvCounts
  stCounts  : AdvCounts
  stale     : Bool
  deriving DecidableEq, Repr

def advLiveReset : AdvLive := ⟨9, 0, 0, 1, 0, 0⟩

/-- A layer after reset (R82). -/
def advLayerReset : AdvLayer :=
  ⟨0x3FF, 3, advLiveReset, advLiveReset, (0x3FF, 3), advCountsZero, advCountsZero, false⟩

/-- One statistics entry (R285): APPLIES, NF, GSQ, USQ, GMAX. -/
structure StatEnt where
  applies : Nat
  nf      : Nat
  gsq     : Nat
  usq     : Nat
  gmax    : Nat
  deriving DecidableEq, Repr

def statZero : StatEnt := ⟨0, 0, 0, 0, 0⟩

/-- The epoch states of STAGE_CNT.STATE (R292). -/
inductive EState where
  | stable
  | staging
  | committing
  | abandoning
  deriving DecidableEq, Repr, Inhabited

/-- The epoch (R272, R286): parity, committed step, attempt, state, the staged counts, and the waiting COMMIT or
ABANDON command. -/
structure Epoch where
  parity   : Nat
  step     : Nat
  attempt  : Nat
  state    : EState
  applied  : Nat
  params   : Nat
  poisoned : Nat
  waiting  : Nat
  time     : Nat
  deriving DecidableEq, Repr, Inhabited

/-! ### Reduction staging (10_gradient_reduction) -/

/-- Reception from one source of a receive context (R263, R264): NPKT of its first packet, the accepted packets by
SEQ, the FLAGS seen, the DIGEST of its LAST packet, and whether a packet lay outside the shard or the shape. -/
structure RxSource where
  rank   : Nat
  npkt   : Nat
  pkts   : List (Nat × List Byte)
  flags  : Nat
  digest : Nat
  bad    : Bool
  deriving DecidableEq, Repr

/-- A receive context (R262, R263): its command, KIND, JOB, STEP, the rank it matches (MINE, or PEER of a chain), the
tiles it has written, its sources, and the accepted packets, as (source, SEQ), whose rows still wait to be written. -/
structure RxCtx where
  key     : Nat
  kind    : Nat
  job     : Nat
  step    : Nat
  rank    : Nat
  wrote   : List Nat
  sources : List RxSource
  waits   : List (Nat × Nat)
  deriving DecidableEq, Repr

/-- A packet of a SEND or SNAP (R252, R392): its port, virtual channel, route, ID, bytes, command, and what the
statuses of its copies have been. `num` numbers packets of the command. -/
structure TxPacket where
  port   : Nat
  vc     : Nat
  alt    : Bool
  ackReq : Bool
  pid    : Nat
  key    : Nat
  num    : Nat
  bytes  : List Byte
  deriving DecidableEq, Repr

/-- What became of a numbered packet of a command: copies outstanding, and whether one was DONE (R392). -/
structure TxState where
  key    : Nat
  num    : Nat
  copies : Nat
  done   : Bool
  deriving DecidableEq, Repr

/-! ### Power, RAS, ports, trace, test -/

/-- The power states of R343; the codes are those of PWR.STATE.STATE (R360). -/
inductive PState where
  | off
  | keep
  | idle
  | rampUp
  | active
  | drain
  | rampDown
  deriving DecidableEq, Repr, Inhabited

/-- Where a wake or a sleep sequence stands (R349). -/
inductive ClkStage where
  | stopped
  | leavingRetention
  | requesting
  | starting
  | running
  | quiescing
  | releasing
  | enteringRetention
  deriving DecidableEq, Repr, Inhabited

/-- The power and ramp governor (R343 to R359): state, clock stage, PCLK_REQ and PCLK_ACK, RESTART_PENDING, whether the move down is a
descent (R346), whether the present wait for an acknowledge has set CLK_SLOW, PCUR_VALID (R400), the credit in 1/800 A, the throttle level in
force. -/
structure Power where
  state   : PState
  clk     : ClkStage
  req     : Bool
  ack     : Bool
  restart : Bool
  descent : Bool
  slow    : Bool
  curOk   : Bool
  credit  : Nat
  thrEff  : Nat
  deriving DecidableEq, Repr, Inhabited

/-- A damaged codeword (R361): its site, whether two bits are wrong, and whether a corrected copy waits to be
written back (R363). -/
structure Damage where
  cls    : Nat
  unit   : Nat
  word   : Nat
  double : Bool
  back   : Bool
  deriving DecidableEq, Repr

/-- One leaky bucket and the counters of its class (R368). -/
structure Bucket where
  level : Nat
  ce    : Nat
  ue    : Nat
  ovf   : Nat
  deriving DecidableEq, Repr

def bucketZero : Bucket := ⟨0, 0, 0, 0⟩

/-- The RAS unit (R361 to R373): buckets by class, CE and UE counts by Screed bank, the error log ring of records, the lost records
(kind, number) of R366, the damaged codewords, keep-domain copies that disagree, the scrubber's place. -/
structure Ras where
  buckets : List (Nat × Bucket)
  banks   : List (Nat × (Nat × Nat))
  log     : List (Nat × List Byte)
  lost    : List (Nat × Nat)
  damage  : List Damage
  keepBad : List (Nat × Nat)
  scrub   : Nat
  deriving DecidableEq, Repr, Inhabited

/-- The T-port (R401, R402): the sampled time, TB_VALID, the largest timestamp issued. -/
structure TimeBase where
  time    : Nat
  valid   : Bool
  largest : Nat
  deriving DecidableEq, Repr, Inhabited

/-- A C-port write (R396): its address and bytes; an interrupt message carries its vector. -/
structure CWrite where
  vec  : Nat
  addr : Nat
  word : Nat
  deriving DecidableEq, Repr

/-- The states of SNAP_ARM.STATE (R334). -/
inductive ArmState where
  | idle
  | arming
  | armed
  | running
  deriving DecidableEq, Repr, Inhabited

/-- The armed snapshot (R334): state, the held descriptor, the records of its PLIST as far as they have been fetched, whether a fetch of them
has failed. -/
structure SnapArm where
  state  : ArmState
  desc   : List Byte
  recs   : List Host.Cell
  failed : Bool
  deriving DecidableEq, Repr, Inhabited

/-- The self-test unit (R412 to R417): the running BIST command and the BIST_STAT.STATE it began with, the last signatures by unit, the failing words by
memory unit (class, count, first word). -/
structure Bist where
  key    : Option Nat
  status : Nat
  misr   : List (Nat × Nat)
  mem    : List (Nat × (Nat × Nat × Nat))
  deriving DecidableEq, Repr, Inhabited

/-- The IEEE 1687 instruments of a unit (R421): START, KIND (bit 0 logic, bit 1 memory), DONE, FAIL, the failing-word count, the MISR readout and
the first-failure register of its controller. -/
structure Ctl1687 where
  run    : Bool
  kind   : Nat
  done   : Bool
  fail   : Bool
  misr   : Nat
  count  : Nat
  first  : Nat
  deriving DecidableEq, Repr

def ctl1687Zero : Ctl1687 := ⟨false, 0, false, false, 0, 0, 0⟩

/-- The instructions of the IEEE 1500 wrapper (R419). -/
inductive Wir where
  | bypass
  | extest
  | intest
  | preload
  | clamp
  | scan
  | wpScan
  | ijtag
  deriving DecidableEq, Repr, Inhabited

/-- The test port (R418 to R421): instruction register, bypass bit, boundary register, 1687 controllers by unit (as in UNITS of BIST: arrays, cores, Screed banks, control memories),
and whether the functional state has been disturbed since RST_N was last asserted (R420). -/
structure TestPort where
  wir       : Wir
  wby       : Bool
  wbr       : List Bool
  ctls      : List (Nat × Ctl1687)
  disturbed : Bool
  deriving DecidableEq, Repr, Inhabited

/-- A hand-off record that waits for room in the ring (R213, R214): its command and its bytes before the timestamp. -/
structure HandOff where
  key   : Nat
  bytes : List Byte
  deriving DecidableEq, Repr

/-- The block. `pending` is the queue of commands waiting to be applied; `wbuf` holds the bytes the step under way has written to memory
(newest first) and `rbuf` the bytes its unit has read before, both empty between steps; `mwait` holds the requests that wait for a credit of
their port, `staged` the bytes read for commands at work; `cfg` and `sts` hold the register fields as the
difference from their reset value, keyed by `fieldKey`: `cfg` those that software writes, `sts` those the engine sets.
`frs` holds the last receive status (PID, code) of each F-port (R393), `regData` and `regErr` the last response of the
register port (R382). -/
@[ext]
structure State where
  pending  : List Instr
  mem      : List Host.Cell
  wbuf     : List Host.Cell
  rbuf     : List Host.Cell
  cfg      : List (Nat × Nat)
  sts      : List (Nat × Nat)
  queues   : List (Nat × Queue)
  cmds     : List Cmd
  mreqs    : List MReq
  mwait    : List MReq
  staged   : List Staged
  rrobin   : List (Nat × Nat)
  arrays   : List (Nat × ArraySt)
  arrFail  : List Nat
  hod      : List HodTile
  dyCache  : List (Nat × (Nat × Nat))
  loadw    : List Nat
  images   : List Saved
  lcache   : List (Nat × List Byte)
  lcacheAge : Nat
  groups   : List (Nat × Group)
  tiles    : List (Nat × TileDir)
  frames   : List (Nat × List (Nat × BitVec 64))
  clock    : Nat
  preloads : List Preload
  diverts  : List Divert
  folds    : List FoldRun
  ledger   : List (Nat × LSlot)
  advisor  : List (Nat × AdvLayer)
  statsCom : List (Nat × StatEnt)
  statsSt  : List (Nat × StatEnt)
  epoch    : Epoch
  rxOpen   : List RxCtx
  rxClosed : List (Nat × Nat × Nat)
  txq      : List TxPacket
  txAwait  : List TxPacket
  txState  : List TxState
  frs      : List (Nat × (Nat × Nat))
  handoffs : List HandOff
  snap     : SnapArm
  power    : Power
  ras      : Ras
  tb       : TimeBase
  trace    : List (List Byte)
  cport    : List CWrite
  regData  : Nat
  regErr   : Nat
  bist     : Bist
  test     : TestPort
  rstLow   : Bool
  wrstLow  : Bool
  quiet    : Nat
  free     : Nat
  deriving DecidableEq, Repr, Inhabited

def queueReset : Queue := ⟨.disabled, false, [], []⟩
def epochReset : Epoch := ⟨0, 0, 0, .stable, 0, 0, 0, 0, 0⟩
def rasReset : Ras := ⟨[], [], [], [], [], [], 0⟩
def snapReset : SnapArm := ⟨.idle, [], [], false⟩
def bistReset : Bist := ⟨none, 0, [], []⟩
def testReset : TestPort := ⟨.bypass, false, [], [], false⟩

/-- The governor after reset: the engine is in KEEP with its fast clocks stopped (R379). -/
def powerReset : Power := ⟨.keep, .stopped, false, false, false, false, false, false, 0, 0⟩

/-- The block right after RST_N is deasserted (R15, R379). The strap values are the model's (the manual gives the
straps no value): CHIP_NUM 0 and all four F-ports connected, kept as the fields' difference from 0. -/
def State.reset : State where
  pending := []
  mem := []
  wbuf := []
  rbuf := []
  cfg := []
  sts := [((0 * 4096 + 0x170) * 64 + 16, 0xF)]
  queues := []
  cmds := []
  mreqs := []
  mwait := []
  staged := []
  rrobin := []
  arrays := []
  arrFail := []
  hod := []
  dyCache := []
  loadw := []
  images := []
  lcache := []
  lcacheAge := 0
  groups := []
  tiles := []
  frames := []
  clock := 0
  preloads := []
  diverts := []
  folds := []
  ledger := []
  advisor := []
  statsCom := []
  statsSt := []
  epoch := epochReset
  rxOpen := []
  rxClosed := []
  txq := []
  txAwait := []
  txState := []
  frs := []
  handoffs := []
  snap := snapReset
  power := powerReset
  ras := rasReset
  tb := ⟨0, false, 0⟩
  trace := []
  cport := []
  regData := 0
  regErr := 0
  bist := bistReset
  test := testReset
  rstLow := false
  wrstLow := false
  quiet := 0
  free := 0

end Sys2Proof.Machine

/-- The functional state after a test-port instruction that needs RST_N asserted, which R420 leaves undefined until RST_N is applied
again; the `n`th taken. -/
opaque Sys2Proof.Config.functionalState : Nat → Sys2Proof.Machine.State
end

