-- ==== Sys2Proof/Machine/Ops.lean ====
section
/-! DEFINITION. The named operations over memory, register fields, events, trace, commands and M-port requests that
every meaning uses, and `settle`, the end of every step. -/

namespace Sys2Proof.Machine

/-! ### Memory behind the M-ports -/

/-- The byte an unlisted address reads as (DESIGN CHOICE, log 2: the manual gives the host chip's memory no contents). -/
def memDefault : Byte := 0#8

/-- The canonical form of memory: addresses rise strictly and no entry holds the default. -/
def Memory.wf (m : List Host.Cell) : Bool := tableWf memDefault m

/-- One byte of memory. -/
def memGet (m : List Host.Cell) (a : Nat) : Byte := tget memDefault m a

/-- Write one byte of memory, keeping the canonical form. -/
def memPut (m : List Host.Cell) (a : Nat) (b : Byte) : List Host.Cell := tput memDefault m a b

/-- The bytes written by a step (newest first) put into memory, oldest first. -/
def memDrain (m : List Host.Cell) (w : List Host.Cell) : List Host.Cell :=
  w.foldr (fun p m => memPut m p.1 p.2) m

/-- One byte as the step under way sees it: its own writes first, then what its unit has read, then memory. -/
def State.byte (s : State) (a : Nat) : Byte :=
  match s.wbuf.find? (fun p => p.1 == a) with
  | some p => p.2
  | none =>
    match s.rbuf.find? (fun p => p.1 == a) with
    | some p => p.2
    | none => memGet s.mem a

/-- `n` bytes from address `a`. -/
def State.bytes (s : State) (a n : Nat) : List Byte := (List.range n).map (fun i => s.byte (a + i))

/-- The little-endian number of `n` bytes at `a` (R16). -/
def State.num (s : State) (a n : Nat) : Nat := leNat (s.bytes a n)

/-- Write one byte. -/
def State.putByte (s : State) (a : Nat) (b : Byte) : State := { s with wbuf := (a, b) :: s.wbuf }

/-- Write bytes from address `a` on. -/
def State.store (s : State) (a : Nat) (l : List Byte) : State :=
  (l.zip (List.range l.length)).foldl (fun s p => s.putByte (a + p.2) p.1) s

/-! ### Register fields -/

/-- The value of a stored register field. A `view` is computed elsewhere, a `wo` field reads 0 (R13). -/
def rd (s : State) (f : Field) : Nat :=
  match f.acc with
  | .rw => tget 0 s.cfg (fieldKey f) ^^^ f.reset
  | .rwOnce => tget 0 s.cfg (fieldKey f) ^^^ f.reset
  | .ro => tget 0 s.sts (fieldKey f) ^^^ f.reset
  | .w1c => tget 0 s.sts (fieldKey f) ^^^ f.reset
  | .const => f.reset
  | .view => 0
  | .wo => 0

/-- Set a stored register field to `v`, cut to the field's width. -/
def wr (s : State) (f : Field) (v : Nat) : State :=
  let x := (v % 2 ^ f.width) ^^^ f.reset
  match f.acc with
  | .rw => { s with cfg := tput 0 s.cfg (fieldKey f) x }
  | .rwOnce => { s with cfg := tput 0 s.cfg (fieldKey f) x }
  | .ro => { s with sts := tput 0 s.sts (fieldKey f) x }
  | .w1c => { s with sts := tput 0 s.sts (fieldKey f) x }
  | _ => s

/-- Advance a saturating counter (R430). -/
def bump (s : State) (f : Field) (n : Nat) : State := wr s f (satAdd f.width (rd s f) n)

/-- A TRW register of one loader (R197), kept on a page of its own outside the map. -/
def ofLoader (f : Field) (l : Nat) : Field := { f with page := 0x100 + l, acc := .ro }

/-! ### Time -/

/-- The timestamp of records (R19, R402): 0 while the time base is not valid, never below one issued before.
The interpolated part is 0 (DESIGN CHOICE, log 3). -/
def now (s : State) : Nat := if s.tb.valid then max s.tb.time s.tb.largest else 0

/-- Whether the port clock runs (R23, R399): between the acknowledge and the withdrawal of the request, while the acknowledge holds. -/
def portClock (s : State) : Bool :=
  s.power.ack && (match s.power.clk with
    | .starting => true
    | .running => true
    | .quiescing => true
    | _ => false)

/-- Whether the units take commands (R343): the port clock runs, the engine is neither OFF nor in KEEP, no reset is asserted. -/
def unitsRun (s : State) : Bool :=
  portClock s && s.power.state != .off && s.power.state != .keep && !s.rstLow && !s.wrstLow

/-- Whether the keep domain works: power is on and no reset is asserted. -/
def awake (s : State) : Bool := s.power.state != .off && !s.rstLow && !s.wrstLow

/-! ### Trace and events -/

/-- The 32 bytes of a trace record (R434). -/
def traceBytes (time src code unit aux seq arg0 arg1 : Nat) : List Byte :=
  natLE time 8 ++ natLE src 1 ++ natLE code 1 ++ natLE unit 1 ++ natLE aux 1 ++ natLE seq 4 ++ natLE arg0 8 ++
    natLE arg1 8

/-- Whether records of source `src` are created (R433, R435). -/
def traceOn (s : State) (src : Nat) : Bool :=
  rd s trcRingCtlSizeLog2 != 0 && bitOf (rd s trcSrcEnSources) src

/-- Records in the ring not yet released (R436). -/
def traceHeld (s : State) : Nat := (rd s trcHeadCount + 2 ^ 32 - rd s trcTailCount) % 2 ^ 32

/-- The counter of the cause that keeps a record out of the FIFO, if any (R436). -/
def traceDrop (s : State) : Option Field :=
  if !portClock s then some trcDroppedAsleep
  else if 2 ^ rd s trcRingCtlSizeLog2 ≤ traceHeld s then some trcDroppedFull
  else if 64 ≤ s.trace.length then some trcDroppedBacklog
  else none

/-- Put a record into the FIFO or count its loss, without the TRC_DROP event. -/
def tracePut (s : State) (rec : List Byte) : State :=
  match traceDrop s with
  | some f => bump s f 1
  | none => { s with trace := s.trace ++ [rec] }

/-- Set an EVT bit with its timestamp and EVENT record (R426, R429, R435); a bit already set stays as it is. -/
def setBit (s : State) (e : Ev) : State :=
  let old := rd s (hdrEvt e.page)
  if bitOf old e.bit then s
  else
    let v := old + 2 ^ e.bit
    let s := wr (wr s (hdrEvt e.page) v) (hdrEvtStamp e.page) (now s)
    if traceOn s 4 then
      tracePut s (traceBytes (now s) 4 e.bit e.page (hdrPageIdInstance e.page).reset 0 v 0)
    else s

/-- Set an event bit; a loss of its EVENT record sets TRC_DROP in turn (R436). -/
def setEvt (s : State) (e : Ev) : State :=
  let lost := !(bitOf (rd s (hdrEvt e.page)) e.bit) && traceOn s 4 && (traceDrop s).isSome
  let s := setBit s e
  if lost then setBit s evTrcDrop else s

/-- Create a trace record of source `src` when it is enabled (R433, R436). -/
def trace (s : State) (src code unit aux seq arg0 arg1 : Nat) : State :=
  if traceOn s src then
    let lost := (traceDrop s).isSome
    let s := tracePut s (traceBytes (now s) src code unit aux seq arg0 arg1)
    if lost then setEvt s evTrcDrop else s
  else s

/-- Set an event when the condition holds. -/
def setEvtIf (b : Bool) (s : State) (e : Ev) : State := if b then setEvt s e else s

/-! ### Interrupts (R397, R398) -/

/-- Whether a page asserts its vector. -/
def pageIrq (s : State) (page : Nat) : Bool := (rd s (hdrEvt page) &&& rd s (hdrEvtEn page)) != 0

/-- The pages of R423. -/
def allPages : List Nat :=
  List.range 0x0E ++ (List.range 6).map (0x10 + ·) ++ (List.range 16).map (0x30 + ·)

/-- The summary of a vector (R397). -/
def vecSummary (s : State) (v : Nat) : Bool := allPages.any (fun p => pageVector p == v && pageIrq s p)

/-- Whether a vector is in message mode: its MODE bit is 1 and its address is not 0 (R397, R405). -/
def vecMessage (s : State) (v : Nat) : Bool :=
  bitOf (rd s glbIrqCtlMode) v && rd s (glbMsiAddrAddr v) != 0

/-- The interrupt wire of a vector (R397). -/
def irqWire (s : State) (v : Nat) : Bool :=
  if s.power.state == .off then false
  else if vecMessage s v then s.power.state == .keep && vecSummary s v
  else vecSummary s v

/-- The message of vector `v` put behind the waiting C-port writes (R398). -/
def irqMessage (s : State) (v : Nat) : State :=
  if portClock s && vecMessage s v then
    { s with cport := s.cport ++
        [⟨v, rd s (glbMsiAddrAddr v), v + rd s glbStrapsChipNum * 2 ^ 16 + (now s % 2 ^ 32) * 2 ^ 32⟩] }
  else s

/-- One message for every vector whose summary rose between `s` and `t` (R398). -/
def irqRises (s t : State) : State :=
  (List.range 4).foldl (fun t v => if !vecSummary s v && vecSummary t v then irqMessage t v else t) t

/-- The end of a step that began in `s` and has worked out `t`: the queue is untouched, the written bytes reach
memory, and rising interrupt vectors send their messages. -/
def settle (s t : State) : State :=
  { irqRises s t with pending := s.pending, mem := memDrain s.mem t.wbuf, wbuf := [], rbuf := [] }

/-! ### Commands in flight -/

/-- Queue and SEQ of a command as one number. -/
def refKey (r : CmdRef) : Nat := r.q.toNat * 2 ^ 32 + r.seq.toNat

/-- The fired armed SNAP, a command of no queue (R334). -/
def firedKey : Nat := 16 * 2 ^ 32

def doneKey : DoneRef → Nat
  | .queued r => refKey r
  | .fired => firedKey

def Cmd.q (c : Cmd) : Nat := c.key / 2 ^ 32
def Cmd.seq (c : Cmd) : Nat := c.key % 2 ^ 32

/-- The started command of a key. -/
def findCmd (s : State) (key : Nat) : Option Cmd := s.cmds.find? (fun c => c.key == key)

/-- Change the started command of a key. -/
def modCmd (s : State) (key : Nat) (f : Cmd → Cmd) : State :=
  { s with cmds := s.cmds.map (fun c => if c.key == key then f c else c) }

/-- A command ended by its unit with status, flags and RESULT (R317, R322). -/
def endedCmd (c : Cmd) (status flags result : Nat) : Cmd :=
  { c with phase := .ended, status := status, flags := c.flags ||| flags, result := result }

/-- End a command. -/
def endCmd (s : State) (key status flags result : Nat) : State :=
  modCmd s key (fun c => endedCmd c status flags result)

/-- The queue beside its registers. -/
def queueOf (s : State) (q : Nat) : Queue := tget queueReset s.queues q

def setQueue (s : State) (q : Nat) (x : Queue) : State := { s with queues := tput queueReset s.queues q x }

/-- The serial-number comparison of R294: `a` is below `b`. -/
def serialLt (a b : Nat) : Bool :=
  let d := (b + 2 ^ 32 - a % 2 ^ 32) % 2 ^ 32
  1 ≤ d && d ≤ 2 ^ 31 - 1

/-! ### Arrays, groups and tiles -/

def arrayOf (s : State) (a : Nat) : ArraySt := tget arrayReset s.arrays a
def setArray (s : State) (a : Nat) (x : ArraySt) : State := { s with arrays := tput arrayReset s.arrays a x }
def groupOf (s : State) (g : Nat) : Group := tget groupFree s.groups g
def setGroup (s : State) (g : Nat) (x : Group) : State := { s with groups := tput groupFree s.groups g x }

/-- The place of tile `t` of group `g` in the tile directory. -/
def tileKey (g t : Nat) : Nat := g * 2 ^ 14 + t

def tileOf (s : State) (g t : Nat) : TileDir := tget tileEmpty s.tiles (tileKey g t)
def setTile (s : State) (g t : Nat) (x : TileDir) : State :=
  { s with tiles := tput tileEmpty s.tiles (tileKey g t) x }

/-! ### M-port requests (R193, R385, R386) -/

/-- The M-port of a granule (R193). -/
def mportOf (a : Nat) : Nat := (bitsOf a 10 4) ^^^ (bitsOf a 14 4)

/-- The lowest tag of the port that is not outstanding (DESIGN CHOICE, log 6). -/
def freeTag (s : State) (port : Nat) : Nat :=
  let used := (s.mreqs.filter (fun r => r.port == port)).map (·.tag)
  ((List.range 1024).find? (fun t => !used.contains t)).getD 0

/-- Whether the port has a credit of the asked kind: 960 for bulk traffic, 64 reserved (R386). -/
def hasCredit (s : State) (port : Nat) (rsv : Bool) : Bool :=
  (s.mreqs.filter (fun r => r.port == port && r.rsv == rsv)).length < (if rsv then 64 else 960)

/-- Issue one request, a write with the runs it carries. -/
def issueStrobed (s : State) (rsv write : Bool) (addr len : Nat) (strobes : List (Nat × Nat)) (why : MPurpose) : State :=
  let p := mportOf addr
  { s with mreqs := s.mreqs ++ [⟨p, freeTag s p, rsv, write, addr, len, strobes, why⟩] }

/-- Issue one request for a run of bytes. -/
def issue (s : State) (rsv write : Bool) (addr len : Nat) (why : MPurpose) : State :=
  issueStrobed s rsv write addr len [(addr, len)] why

/-- Put a bulk request behind those that wait for a credit of their port (R26, R193). -/
def ask (s : State) (write : Bool) (addr len : Nat) (strobes : List (Nat × Nat)) (why : MPurpose) : State :=
  { s with mwait := s.mwait ++ [⟨mportOf addr, 0, false, write, addr, len, strobes, why⟩] }

/-- Whether a waiting request is a read of a command that has ended or gone: it is not made any more. -/
def staleRead (s : State) (r : MReq) : Bool :=
  match r.why with
  | .cmdRead key _ _ => !((findCmd s key).any (fun c => c.phase == .started || c.phase == .begun))
  | _ => false

/-- A waiting request goes out if its port has a credit, else it waits on. -/
def goOut (s : State) (r : MReq) : State :=
  if staleRead s r then s
  else if hasCredit s r.port r.rsv then { s with mreqs := s.mreqs ++ [{ r with tag := freeTag s r.port }] }
  else { s with mwait := s.mwait ++ [r] }

/-- Waiting requests go out in their order as far as the credits of their ports allow (R195, R386). -/
def pump (s : State) : State := s.mwait.foldl goOut { s with mwait := [] }

/-- The requests outstanding or waiting. -/
def openReqs (s : State) : List MReq := s.mreqs ++ s.mwait

/-- A run of bytes cut at the granules (R193). -/
def granulePieces (a n : Nat) : List (Nat × Nat) :=
  (List.range (ceilDiv (a % 1024 + n) 1024)).map (fun i =>
    let lo := max a ((a / 1024 + i) * 1024)
    (lo, min (a + n) ((a / 1024 + i + 1) * 1024) - lo))

/-- The runs of consecutive addresses among bytes written, newest first; no run leaves its granule. -/
def writtenRuns (w : List Host.Cell) : List (Nat × Nat) :=
  w.foldl (fun rs p => match rs with
    | (a, n) :: t =>
      if p.1 + 1 = a ∧ p.1 / 1024 = a / 1024 then (p.1, n + 1) :: t
      else if a ≤ p.1 ∧ p.1 < a + n then rs else (p.1, 1) :: rs
    | [] => [(p.1, 1)]) []

/-- The runs of each granule, one request for each (R193). -/
def granuleRuns (rs : List (Nat × Nat)) : List (Nat × List (Nat × Nat)) :=
  rs.foldl (fun g r => tput [] g (r.1 / 1024) (tget [] g (r.1 / 1024) ++ [r])) []

/-- Ask for one request a granule over the runs, and send what can go (R193). -/
def askRuns (s : State) (write : Bool) (rs : List (Nat × Nat)) (why : MPurpose) : State :=
  if rs.isEmpty then s
  else pump ((granuleRuns rs).foldl (fun s g =>
    let lo := g.2.foldl (fun a r => min a r.1) (1024 * g.1 + 1023)
    ask s write lo (g.2.foldl (fun n r => max n (r.1 + r.2)) 0 - lo) g.2 why) s)

/-- Read the ranges for a part of a command (R193). -/
def askReads (s : State) (key core part : Nat) (rs : List (Nat × Nat)) : State :=
  askRuns s false ((rs.filter (fun r => 0 < r.2)).flatMap (fun r => granulePieces r.1 r.2)) (.cmdRead key core part)

/-- Whether reads of a part of a command are outstanding or wait. -/
def partWaits (s : State) (key core part : Nat) : Bool := (openReqs s).any (fun r => r.why == .cmdRead key core part)

/-- Bytes read for a part of a command join what its unit holds. -/
def holdBytes (s : State) (key core part : Nat) (cells : List Host.Cell) : State :=
  match s.staged.find? (fun e => e.key == key && e.core == core && e.part == part) with
  | some _ => { s with staged := s.staged.map (fun e =>
      if e.key == key && e.core == core && e.part == part then { e with cells := cells ++ e.cells } else e) }
  | none => { s with staged := s.staged ++ [⟨key, core, part, 0, cells⟩] }

/-- The state as the unit `core` of a command reads it: through the bytes it holds. -/
def readView (s : State) (key core : Nat) : State :=
  { s with rbuf := (s.staged.filter (fun e => e.key == key && e.core == core)).flatMap (·.cells) }

/-- What memory holds where a write was answered with an error is the host chip's matter, and the manual does not say: free values. -/
def freeRun (s : State) (r : Nat × Nat) : State :=
  (List.range r.2).foldl (fun s k => { s.putByte (r.1 + k) (Config.freeByte s.free) with free := s.free + 1 }) s

/-! ### Live arrays (R108 to R111) -/

/-- Whether the arrays may be used: the map is written and consistent (R109). -/
def arraysUsable (s : State) : Bool := rd s glbArrayLiveLocked == 1 && rd s glbArrayLiveMapBad == 0

/-- The live arrays of a core, in ascending number; none until LOCKED. -/
def liveOfCore (s : State) (c : Nat) : List Nat :=
  if rd s glbArrayLiveLocked == 1 then
    (List.range 4).filter (fun j => bitOf (rd s glbArrayLiveLive) (4 * c + j)) else []

/-- The pairs (D, W) and the single array of a core by R110, as array numbers 0 to 3 of the core. -/
def coreMap (live : List Nat) : List (Nat × Nat) × Option Nat :=
  match live with
  | [a, b, c, d] => ([(a, b), (c, d)], none)
  | [a, b, c] => ([(a, b)], some c)
  | [a, b] => ([(a, b)], none)
  | _ => ([], none)

/-- A lane (R122): core, D array, W array; a single array is its own W array. -/
structure Lane where
  core   : Nat
  d      : Nat
  w      : Nat
  single : Bool
  deriving DecidableEq, Repr

/-- The lanes in lane order, single arrays only when they take part (R122). -/
def lanes (s : State) (singles : Bool) : List Lane :=
  (List.range 6).flatMap (fun c =>
    let m := coreMap (liveOfCore s c)
    m.1.map (fun p => ⟨c, 4 * c + p.1, 4 * c + p.2, false⟩) ++
      (match m.2 with
        | some j => if singles then [⟨c, 4 * c + j, 4 * c + j, true⟩] else []
        | none => []))

end Sys2Proof.Machine
end

