-- ==== Sys2Proof/Machine/Operands.lean ====
section
/-! DEFINITION. Operand forms: the descriptor header (R299), layout records and the addresses they give
(07_trowel_loader R171 to R179), loads and stores of single elements. -/

namespace Sys2Proof.Machine

/-! ### The descriptor -/

def dNum (d : List Byte) (off n : Nat) : Nat := fieldAt d off n
def dOp (d : List Byte) : Nat := dNum d 0x00 1
def dWait (d : List Byte) : Bool := bitOf (dNum d 0x01 1) 0
def dIrq (d : List Byte) : Bool := bitOf (dNum d 0x01 1) 1
def dPack (d : List Byte) : Bool := bitOf (dNum d 0x01 1) 2
def dTag (d : List Byte) : Nat := dNum d 0x04 4
def dStamp (d : List Byte) : Nat := dNum d 0x08 4
def dStep (d : List Byte) : Nat := dNum d 0x0C 4
def dTid (d : List Byte) : Nat := dNum d 0x10 4
def dAdvId (d : List Byte) : Nat := dNum d 0x14 1
def dAdvObs (d : List Byte) : Bool := bitOf (dNum d 0x15 1) 0
def dAdvUse (d : List Byte) : Bool := bitOf (dNum d 0x15 1) 1
def dTags (d : List Byte) : Nat := dNum d 0x18 8

/-! ### Layout records (R171) -/

/-- A layout record as read; `raw` keeps its 64 bytes for the reserved-field checks. -/
structure Layout where
  addr   : Nat
  base   : Nat
  code   : Nat
  mx     : Bool
  kind   : Nat
  texp   : Int
  ndim   : Nat
  axis   : Nat
  ext    : List Nat
  stride : List Int
  scale  : Nat
  raw    : List Byte
  deriving DecidableEq, Repr

/-- The fields of the 64 bytes of a record (R171). -/
def parseLayout (addr : Nat) (b : List Byte) : Layout :=
  let f := fieldAt b 0x08 1
  { addr := addr
    base := fieldAt b 0x00 8
    code := bitsOf f 0 4
    mx := bitOf f 4
    kind := bitsOf f 5 2
    texp := signedOf (fieldAt b 0x09 1) 8
    ndim := fieldAt b 0x0A 1
    axis := bitsOf (fieldAt b 0x0B 1) 0 4
    ext := (List.range 4).map (fun d => bitsOf (fieldAt b (0x10 + 4 * d) 4) 0 24)
    stride := 0 :: (List.range 3).map (fun d => signedOf (fieldAt b (0x20 + 8 * d) 8) 64)
    scale := fieldAt b 0x38 8
    raw := b }

/-- A record as a command that starts reads it: from the layout cache when it is held there (R176). -/
def cachedBytes (s : State) (addr : Nat) : List Byte :=
  match tfind s.lcache addr with
  | some b => b
  | none => s.bytes addr 64

/-- The bytes of a layout record: as a started command that names it has read it (R174), else as one would read it now. -/
def layoutBytes (s : State) (addr : Nat) : List Byte :=
  match s.cmds.findSome? (fun c => tfind c.recs addr) with
  | some b => b.take 64
  | none => cachedBytes s addr

/-- The `n` bytes of a record a command has read at its start, or as they are now. -/
def recOf (s : State) (c : Cmd) (addr n : Nat) : List Byte :=
  match tfind c.recs addr with
  | some b => b
  | none => s.bytes addr n

/-- The layout record at an address. -/
def layoutAt (s : State) (addr : Nat) : Layout := parseLayout addr (layoutBytes s addr)

/-- Whether dimension `d` counts logical rows. -/
def axisRow (l : Layout) (d : Nat) : Bool := bitOf l.axis d

/-- The dimensions of a record. -/
def dims (l : Layout) : List Nat := List.range (min l.ndim 4)

def extOf (l : Layout) (d : Nat) : Nat := (l.ext[d]?).getD 0
def strideOf (l : Layout) (d : Nat) : Int := (l.stride[d]?).getD 0

/-- The product of the extents of the row or the column axis (R174). -/
def axisExtent (l : Layout) (row : Bool) : Nat :=
  (dims l).foldl (fun p d => if axisRow l d == row then p * extOf l d else p) 1

/-- Bits of one element of a format code, binary64 included (R33). -/
def codeBits (code : Nat) : Nat :=
  match code with
  | 0 => 32 | 1 => 16 | 2 => 16 | 5 => 6 | 6 => 6 | 7 => 4 | 0xA => 64
  | _ => 8

/-- Bits of one element of the record: 1 for mask bits, 8 for scales (R54, R172). -/
def layoutBits (l : Layout) : Nat := if l.kind = 2 then 1 else if l.kind = 1 then 8 else codeBits l.code

/-- Elements of a packing group (R54). -/
def groupElems (bits : Nat) : Nat := if bits = 1 then 8 else if bits = 4 then 2 else if bits = 6 then 4 else 1

/-- The alignment of R175 in bytes. -/
def layoutAlign (l : Layout) : Nat :=
  if l.kind ≠ 0 then 1 else if l.code = 0 then 4 else if l.code = 1 || l.code = 2 then 2 else 1

/-- The stored indices of logical (row, column), dimension 0 first (R173). -/
def storedIdx (l : Layout) (r c : Nat) : List Nat :=
  ((dims l).foldl (fun (a : List Nat × Nat × Nat) d =>
    let e := max 1 (extOf l d)
    if axisRow l d then (a.1 ++ [a.2.1 % e], a.2.1 / e, a.2.2) else (a.1 ++ [a.2.2 % e], a.2.1, a.2.2 / e))
    ([], r, c)).1

/-- The logical row and column of stored indices (R173). -/
def logicalOf (l : Layout) (idx : List Nat) : Nat × Nat :=
  let a := (dims l).foldl (fun (a : (Nat × Nat) × (Nat × Nat)) d =>
    let i := (idx[d]?).getD 0
    let e := extOf l d
    if axisRow l d then ((a.1.1 + i * a.1.2, a.1.2 * e), a.2) else (a.1, (a.2.1 + i * a.2.2, a.2.2 * e)))
    ((0, 1), (0, 1))
  (a.1.1, a.2.1)

/-- The sum of `i_d * STRIDE_d` over the outer dimensions. -/
def outerOff (l : Layout) (idx : List Nat) : Int :=
  (dims l).foldl (fun a d => if d = 0 then a else a + (((idx[d]?).getD 0 : Nat) : Int) * strideOf l d) 0

/-- A global address: the chip of BASE with a local offset from it (R173). -/
def localAddr (base : Nat) (off : Int) : Nat :=
  base / 2 ^ 48 * 2 ^ 48 + ((base % 2 ^ 48 : Nat) + off).toNat

/-- The byte address and the bit in it of logical element (r, c) (R54, R173). -/
def elemAddr (l : Layout) (r c : Nat) : Nat × Nat :=
  let idx := storedIdx l r c
  let bit := layoutBits l * (idx[0]?).getD 0
  (localAddr l.base (outerOff l idx + (bit / 8 : Nat)), bit % 8)

/-- The bytes a run of `n` elements takes (R54). -/
def runBytes (bits n : Nat) : Nat := ceilDiv (bits * n) 8

/-- The bounding box in local addresses of an array with this record's outer dimensions (R177). -/
def boxOf (l : Layout) (bits ext0 : Nat) : Int × Int :=
  let b : Int := (l.base % 2 ^ 48 : Nat)
  (dims l).foldl (fun (a : Int × Int) d =>
    if d = 0 then a
    else
      let x := ((extOf l d : Int) - 1) * strideOf l d
      if extOf l d ≤ 1 then a else (a.1 + min 0 x, a.2 + max 0 x)) (b, b + (runBytes bits ext0 : Int) - 1)

/-- The bounding box of the element or mask array. -/
def layoutBox (l : Layout) : Int × Int := boxOf l (layoutBits l) (extOf l 0)

/-- A box as (global address, length). -/
def boxRange (l : Layout) (b : Int × Int) : Nat × Nat :=
  (l.base / 2 ^ 48 * 2 ^ 48 + b.1.toNat, (b.2 - b.1 + 1).toNat)

/-- The scale record of an element record, with its extents taken from it (R172). -/
def scaleLayout (s : State) (l : Layout) : Layout :=
  { layoutAt s l.scale with
      kind := 1, axis := l.axis, ext := ceilDiv (extOf l 0) 32 :: l.ext.drop 1, ndim := l.ndim }

/-- Whether stores to the record are disjoint by the test of R179, made on the element array; an MX output's scale array is not tested beside it
(DESIGN CHOICE, log 71). -/
def disjointLayout (l : Layout) : Bool :=
  let ds := sortBy (fun d => (strideOf l d).natAbs) ((dims l).filter (fun d => 1 ≤ d && 1 < extOf l d))
  (ds.foldl (fun (a : Bool × Nat) d =>
    let st := (strideOf l d).natAbs
    (a.1 && a.2 ≤ st, st * (extOf l d - 1) + a.2)) (true, runBytes (layoutBits l) (extOf l 0))).1

/-! ### The bytes of a region (R178, R193) -/

/-- The elements of rows `r0` to `r0 + nr - 1` and columns `c0` to `c0 + nc - 1` along the stored runs. -/
def regionCells (l : Layout) (r0 nr c0 nc : Nat) : List (Nat × Nat) :=
  if axisRow l 0 then (List.range nc).flatMap (fun c => (List.range nr).map (fun r => (r0 + r, c0 + c)))
  else (List.range nr).flatMap (fun r => (List.range nc).map (fun c => (r0 + r, c0 + c)))

/-- A piece of bytes joined to the last run when it goes on from inside or from the end of it. -/
def joinRun (rs : List (Nat × Nat)) (p : Nat × Nat) : List (Nat × Nat) :=
  match rs with
  | (a, n) :: t => if a ≤ p.1 && p.1 ≤ a + n then (a, max n (p.1 + p.2 - a)) :: t else p :: rs
  | [] => [p]

/-- The runs of bytes that hold the elements of a region. -/
def regionRuns (l : Layout) (r0 nr c0 nc : Nat) : List (Nat × Nat) :=
  ((regionCells l r0 nr c0 nc).foldl (fun rs p =>
    let a := elemAddr l p.1 p.2
    joinRun rs (a.1, ceilDiv (a.2 + layoutBits l) 8)) []).reverse

/-- The address of the scale byte of element (r, c), from its scale record (R185). -/
def scaleAddr (l sc : Layout) (r c : Nat) : Nat :=
  let idx := storedIdx l r c
  localAddr sc.base (outerOff sc idx + ((idx[0]?).getD 0 / 32 : Nat))

/-- The runs of scale bytes of a region. -/
def scaleRuns (l sc : Layout) (r0 nr c0 nc : Nat) : List (Nat × Nat) :=
  if l.mx then ((regionCells l r0 nr c0 nc).foldl (fun rs p => joinRun rs (scaleAddr l sc p.1 p.2, 1)) []).reverse else []

/-! ### Single elements -/

/-- The runs of bytes of a region of an operand, elements and scales (R178, R185). -/
def operandRuns (s : State) (l : Layout) (r0 nr c0 nc : Nat) : List (Nat × Nat) :=
  regionRuns l r0 nr c0 nc ++ (if l.mx then scaleRuns l (scaleLayout s l) r0 nr c0 nc else [])

/-- The raw bits of element (r, c). -/
def loadRaw (s : State) (l : Layout) (r c : Nat) : Nat :=
  let a := elemAddr l r c
  bitsOf (s.num a.1 (ceilDiv (a.2 + layoutBits l) 8)) a.2 (layoutBits l)

/-- The scale byte of element (r, c) of an MX operand: its stored block's (R185). -/
def loadScale (s : State) (l : Layout) (r c : Nat) : Nat :=
  if l.mx then
    s.num (scaleAddr l (scaleLayout s l) r c) 1
  else 0

/-- The element format of a record; INT8 and the floating formats alike (R34). -/
def layoutFmt (l : Layout) : ElemFmt := ⟨(fmtOf l.code).getD .fp32, l.mx, l.texp⟩

/-- The exact value of element (r, c) (R46). -/
def loadVal (s : State) (l : Layout) (r c : Nat) : Val :=
  if l.code = 0xA then decodeFloat ffB64 (loadRaw s l r c)
  else elemVal (layoutFmt l) (loadScale s l r c) (loadRaw s l r c)

/-- Write the bits of element (r, c), its packing neighbours unchanged (R192). -/
def storeRaw (s : State) (l : Layout) (r c raw : Nat) : State :=
  let a := elemAddr l r c
  let w := layoutBits l
  let n := ceilDiv (a.2 + w) 8
  let old := s.num a.1 n
  let v := old - (bitsOf old a.2 w) <<< a.2 + (raw % 2 ^ w) <<< a.2
  s.store a.1 (natLE v n)

/-- Write the scale byte of the block of element (r, c). -/
def storeScale (s : State) (l : Layout) (r c v : Nat) : State :=
  s.store (scaleAddr l (scaleLayout s l) r c) (natLE v 1)

/-- The logical positions of the 32-element block of (r, c) along stored dimension 0 (R47, R50). -/
def blockOf (l : Layout) (r c : Nat) : List (Nat × Nat) :=
  let idx := storedIdx l r c
  let b := (idx[0]?).getD 0 / 32
  ((List.range 32).filter (fun k => 32 * b + k < extOf l 0)).map
    (fun k => logicalOf l ((32 * b + k) :: idx.drop 1))

/-! ### Output stores (R49, R189 to R192) -/

/-- The values of a block, when all of them are present. -/
def blockVals (val : Nat → Nat → Option Val) (cols : Nat) (ps : List (Nat × Nat)) : Option (List (Nat × Val)) :=
  ps.foldr (fun p acc => match val p.1 p.2, acc with
    | some v, some l => some ((p.1 * cols + p.2, v) :: l)
    | _, _ => none) (some [])

/-- Store element (r, c) of an output when its value, or every value of its MX block, is present; SAT_EVENTS counts in
the counter `cnt` gives for the position, that of a block with its first element (R45, R49). -/
def storeOutElem (l : Layout) (f : StoreFmt) (cols : Nat) (cnt : Nat → Nat → Field) (val : Nat → Nat → Option Val)
    (s : State) (r c : Nat) : State :=
  if f.mx then
    let ps := blockOf l r c
    match blockVals val cols ps with
    | none => s
    | some vs =>
      let b := mxBlock f vs
      let code := ((vs.zip b.2.1).find? (fun p => p.1.1 == r * cols + c)).map (·.2)
      let s1 := storeScale (storeRaw s l r c (code.getD 0)) l r c b.1
      if ps.head? == some (r, c) then bump s1 (cnt r c) b.2.2 else s1
  else
    match val r c with
    | none => s
    | some v =>
      let q := storeElem f (r * cols + c) v
      let s1 := storeRaw s l r c q.1
      if q.2 then bump s1 (cnt r c) 1 else s1

/-- Store the present elements of a rows × cols output in ascending logical index (R191). -/
def storeOutput (s : State) (l : Layout) (f : StoreFmt) (rows cols : Nat) (cnt : Nat → Nat → Field)
    (val : Nat → Nat → Option Val) : State :=
  forN rows (fun r s => forN cols (fun c s => storeOutElem l f cols cnt val s r c) s) s

end Sys2Proof.Machine
end

