-- ==== Sys2Proof/Machine/Frames.lean ====
section
/-! DEFINITION. The frames and tiles of the Screed (06 R143 to R151): where entries lie, how they read, which frames are free. -/

namespace Sys2Proof.Machine

/-! ### Frames and tiles (R143 to R151) -/

/-- The number of set bits of `n` below bit `w`. -/
def popcount (n w : Nat) : Nat := ((List.range w).filter (bitOf n)).length

/-- Frames of the live banks (R143): 16 a bank. -/
def liveFrames (s : State) : Nat := 16 * popcount (rd s scrBankLiveMask) 32

def groupTR (x : Group) : Nat := ceilDiv x.rows 256
def groupTC (x : Group) : Nat := ceilDiv x.cols 256

/-- The tiles of a group; none when it is FREE. -/
def groupTiles (x : Group) : Nat := if x.state == .free then 0 else groupTR x * groupTC x

/-- A group with an FP32 home is pinned (R151). -/
def pinned (x : Group) : Bool := x.homeFmt == 0

/-- Directory entries reserved by the open groups (R149). -/
def dirUsed (s : State) : Nat := s.groups.foldl (fun a p => a + groupTiles p.2) 0

/-- Frames reserved by pinned groups (R151). -/
def pinnedFrames (s : State) : Nat :=
  s.groups.foldl (fun a p => a + if pinned p.2 then groupTiles p.2 else 0) 0

/-- Whether a directory key belongs to a cached group. -/
def cachedKey (s : State) (k : Nat) : Bool := !(pinned (groupOf s (k / 2 ^ 14)))

/-- Frames that hold tiles of cached groups. -/
def residentCached (s : State) : Nat :=
  (s.tiles.filter (fun p => p.2.state == .resident && cachedKey s p.1)).length

/-- Frames held by preloads (R167). -/
def heldFrames (s : State) : Nat := s.preloads.length

/-- Frames a cached tile or a preload may still take. -/
def freeFrames (s : State) : Nat := liveFrames s - pinnedFrames s - residentCached s - heldFrames s

/-- The lowest frame number that no tile holds (DESIGN CHOICE, log 5). -/
def lowestFrame (s : State) : Nat :=
  let used := (s.tiles.filter (fun p => p.2.state == .resident)).map (·.2.frame)
  ((List.range 512).find? (fun f => !used.contains f)).getD 0

def frameOf (s : State) (f : Nat) : List (Nat × BitVec 64) := (tfind s.frames f).getD []
def setFrame (s : State) (f : Nat) (x : List (Nat × BitVec 64)) : State := { s with frames := tins s.frames f x }

/-- The Screed bank and the index in it of row `r` of frame `f` (R143). -/
def frameRow (s : State) (f r : Nat) : Nat × Nat :=
  let banks := (List.range 32).filter (bitOf (rd s scrBankLiveMask))
  let n := 256 * f + r
  ((banks[n % banks.length]?).getD 0, n / banks.length)

/-- The frame and row of a frame row of a live bank (R143). -/
def rowFrame (s : State) (bank index : Nat) : Option (Nat × Nat) :=
  let banks := (List.range 32).filter (bitOf (rd s scrBankLiveMask))
  if banks.contains bank then
    let n := index * banks.length + banks.idxOf bank
    some (n / 256, n % 256)
  else none

/-- The words of frame `f` that a write has covered take fresh check bits (R145, R364): damage in them is gone. -/
def freshWords (s : State) (f : Nat) (hit : Nat → Bool) : State :=
  { s with ras := { s.ras with damage := s.ras.damage.filter (fun d =>
      !(d.cls ≤ 1 && (match rowFrame s d.unit (if d.cls = 0 then d.word / 256 else d.word / 4) with
        | some (g, r) => g == f && (d.cls == 1 || hit (r * 256 + d.word % 256))
        | none => false))) } }

/-- Fill a frame anew. -/
def newFrame (s : State) (f : Nat) (x : List (Nat × BitVec 64)) : State :=
  freshWords (setFrame s f x) f (fun _ => true)
def dropFrame (s : State) (f : Nat) : State := { s with frames := tdel s.frames f }

/-- Bytes of a home entry: 4 or 8 (R162). -/
def homeSize (x : Group) : Nat := if pinned x then 4 else 8

/-- The address of entry (r, c) of the group in its home buffer (R162). -/
def homeEntry (x : Group) (r c : Nat) : Nat := x.homeAddr + r * x.homePitch + c * homeSize x

/-- Entry (r, c) of the group as its home buffer holds it, in binary64 exactly (R163), a NaN made canonical (R39). -/
def homeRead (s : State) (x : Group) (r c : Nat) : BitVec 64 :=
  let n := s.num (homeEntry x r c) (homeSize x)
  if pinned x then fp32ToB64 n else b64Entry n

/-- The entries of tile `t` inside the group's shape, as (key in the tile, row, column of the group). -/
def tileCells (x : Group) (t : Nat) : List (Nat × Nat × Nat) :=
  let a := t / groupTC x
  let b := t % groupTC x
  (List.range (min 256 (x.rows - 256 * a))).flatMap (fun r =>
    (List.range (min 256 (x.cols - 256 * b))).map (fun c => (r * 256 + c, 256 * a + r, 256 * b + c)))

/-- Entry `k` (row * 256 + column) of tile `t` as a reader sees it (R146, R163): from its frame, from the home
buffer, or +0. -/
def readEntry (s : State) (g t k : Nat) : BitVec 64 :=
  let x := groupOf s g
  let d := tileOf s g t
  let r := 256 * (t / groupTC x) + k / 256
  let c := 256 * (t % groupTC x) + k % 256
  match d.state with
  | .resident => (tfind (frameOf s d.frame) k).getD 0
  | .home => if r < x.rows && c < x.cols then homeRead s x r c else 0
  | .untouched => if x.init && r < x.rows && c < x.cols then homeRead s x r c else 0

/-- Note an access to a resident tile (R164). -/
def touchTile (s : State) (g t : Nat) : State :=
  { setTile s g t { tileOf s g t with access := s.clock } with clock := s.clock + 1 }

/-- Note an access to every resident tile of a group (R164). -/
def touchGroup (s : State) (g : Nat) : State :=
  (s.tiles.filter (fun p => p.1 / 2 ^ 14 == g && p.2.state == .resident)).foldl (fun s p => touchTile s g (p.1 % 2 ^ 14)) s

/-- Whether a tile is held by a fold in progress or named by a waiting fold (R164). -/
def tileHeld (s : State) (k : Nat) : Bool := s.folds.any (fun f => tileKey f.group f.tile == k)

/-- Whether a FOLDING plane waits to fold into a tile (R99, R164). -/
def foldWaits (s : State) (k : Nat) : Bool :=
  s.arrays.any (fun p => [p.2.planeA, p.2.planeB].any (fun pl => pl.state == .folding && pl.parts.any (fun x => x.fold == some k)))

/-- The victim of R164: the RESIDENT cached tile, held by no lock and named by no waiting fold, least recently accessed; ties to the lower group
and tile. -/
def victim (s : State) : Option Nat :=
  (s.tiles.foldl (fun (a : Option (Nat × Nat)) p =>
    if p.2.state == .resident && cachedKey s p.1 && !(tileHeld s p.1) && !(foldWaits s p.1) then
      match a with
      | none => some (p.1, p.2.access)
      | some (k, t) => if p.2.access < t then some (p.1, p.2.access) else some (k, t)
    else a) none).map (·.1)

end Sys2Proof.Machine
end

