-- ==== Sys2Proof/Machine/Errors.lean ====
section
/-! DEFINITION. Memory protection (15 R361 to R377): the error log, the buckets, what a single-bit or double-bit error does where
it is met, and the moves of tiles between frames and homes, which meet errors. -/

namespace Sys2Proof.Machine

/-- Make a group BROKEN (R152); a FREE group stays FREE. -/
def breakGroup (s : State) (g : Nat) : State :=
  let x := groupOf s g
  if x.state == .open || x.state == .torn then
    setEvt (setGroup s g { x with state := .broken, torn := 0 }) evBroken
  else s

/-- A tile SPOILED and its group BROKEN (R158, R364). -/
def spoilTile (s : State) (g t : Nat) : State :=
  breakGroup (setTile s g t { tileOf s g t with spoiled := true }) g

/-! ### The error log (R372, R373) -/

/-- A record of the error log but its TIME. -/
structure LogRec where
  kind   : Nat
  cls    : Nat
  action : Nat
  unit   : Nat
  loc    : Nat
  addr   : Nat
  synd   : Nat
  q      : Nat
  group  : Nat
  seq    : Nat
  deriving DecidableEq, Repr

def logBytes (s : State) (r : LogRec) : List Byte :=
  natLE (now s) 8 ++ natLE r.kind 1 ++ natLE r.cls 1 ++ natLE r.action 1 ++ natLE r.unit 1 ++ natLE r.loc 4 ++
    natLE r.addr 8 ++ natLE r.synd 1 ++ natLE r.q 1 ++ natLE r.group 1 ++ natLE 0 1 ++ natLE r.seq 4

/-- The kinds whose record a full log drops first: corrections, overrides and overflows (DEDUCED, log 43). -/
def logCorrectable (kind : Nat) : Bool := kind == 1 || kind == 5 || kind == 6

/-- The pages a record concerns (R373). -/
def logPages (r : LogRec) : List Nat :=
  if r.kind = 5 then [0x00]
  else
    (match r.cls with
      | 0 => [0x09] | 1 => [0x09] | 2 => [0x09]
      | 3 => [0x10 + r.unit] | 4 => [0x10 + r.unit / 4] | 5 => [0x10 + r.unit / 4]
      | 6 => if r.unit < 6 then [0x08] else [0x0C]
      | 7 => [0x06] | 8 => [0x07, 0x0D] | 9 => [0x0C] | 10 => [0x01] | 11 => [0x00]
      | 12 => [0x08]
      | _ => []) ++ [0x03]

/-- ERRLOG_PTR and UE_SEEN of the pages a record concerns (R373, R426). -/
def logPoint (s : State) (r : LogRec) (idx : Nat) : State :=
  (logPages r).foldl (fun s p =>
    let s := wr (wr s (hdrErrlogIndex p) idx) (hdrErrlogValid p) 1
    if r.kind = 2 || r.kind = 3 then wr s (hdrStatUeSeen p) 1 else s) s

/-- Unreleased records in the log. -/
def logHeld (s : State) : Nat := (rd s rasLogHeadCount + 2 ^ 32 - rd s rasLogTailCount) % 2 ^ 32

/-- Put a record at entry `idx`. -/
def logAt (s : State) (r : LogRec) (idx : Nat) : State :=
  let s := logPoint { s with ras := { s.ras with log := tins s.ras.log idx (logBytes s r) } } r idx
  trace s 5 r.kind r.cls r.action idx (r.loc % 2 ^ 32 + r.synd % 256 * 2 ^ 32) r.addr

/-- The entry of the oldest unreleased correctable record. -/
def oldestCorrectable (s : State) : Option Nat :=
  ((List.range 256).map (fun i => (rd s rasLogTailCount + i) % 256)).find? (fun i =>
    logCorrectable (fieldAt ((tfind s.ras.log i).getD []) 8 1))

/-- Write a record into the log (R372). -/
def logPut (s : State) (r : LogRec) : State :=
  if logHeld s < 256 then
    let s := logAt s r (rd s rasLogHeadCount % 256)
    let s := wr s rasLogHeadCount (rd s rasLogHeadCount + 1)
    setEvtIf (256 ≤ logHeld s) s evLogFull
  else if logCorrectable r.kind then bump s rasLogLostCe 1
  else match oldestCorrectable s with
    | some i => logAt s r i
    | none => bump s rasLogLostUe 1

/-! ### Counts and buckets (R368, R377) -/

def bucketOf (s : State) (cls : Nat) : Bucket := tget bucketZero s.ras.buckets cls
def setBucket (s : State) (cls : Nat) (b : Bucket) : State :=
  { s with ras := { s.ras with buckets := tput bucketZero s.ras.buckets cls b } }

/-- Count an error of classes 0 and 1 against its Screed bank (R377). -/
def bankCount (s : State) (cls unit : Nat) (ue : Bool) : State :=
  if cls ≤ 1 then
    { s with ras := { s.ras with banks := tmod (0, 0) s.ras.banks unit (fun x =>
        if ue then (x.1, satAdd 16 x.2 1) else (satAdd 32 x.1 1, x.2)) } }
  else s

/-- A correctable error of a class: its count and its bucket; an overflow writes a record of KIND 6 (R368, R372). -/
def bucketAdd (s : State) (cls : Nat) : State :=
  let b := bucketOf s cls
  let ce := satAdd 32 b.ce 1
  if b.level < rd s rasBucketCtlDepth then setBucket s cls { b with level := b.level + 1, ce := ce }
  else
    let ovf := satAdd 8 b.ovf 1
    let s := setBucket s cls { b with level := rd s rasBucketCtlDepth, ce := ce, ovf := ovf }
    let m := rd s rasOvfMaskClasses
    let s := setEvt (if bitOf m cls then s else wr s rasOvfMaskClasses (m + 2 ^ cls)) evCeOvf
    logPut s ⟨6, cls, 0, 0xFF, ovf, 0, 0, 0xFF, 0xFF, 0⟩

/-- An uncorrectable error of a class: its count and the UE event (R368). -/
def ueCount (s : State) (cls : Nat) : State :=
  let b := bucketOf s cls
  setEvt (setBucket s cls { b with ue := satAdd 16 b.ue 1 }) evUe

/-- QUEUE and SEQ of a record (R372). -/
def logCmd (c : Option Cmd) : Nat × Nat :=
  match c with
  | some c => if c.key < firedKey then (c.q, c.seq) else (0xFF, 0xFFFFFFFF)
  | none => (0xFF, 0)

/-- The syndrome of an error: a free value (log 42). -/
def withSyndrome (s : State) (f : Nat → State → State) : State :=
  f (Config.syndrome s.free % 256) { s with free := s.free + 1 }

/-! ### Lost records (R366) -/

/-- The STATE_LOST bits follow the lost records: kind 0 slots, 1 advisor layers, 2 staged, 3 committed statistics. -/
def syncLost (s : State) : State :=
  let b := fun k => if s.ras.lost.any (fun p => p.1 == k) then 1 else 0
  wr (wr (wr (wr s rasStateLostLedger (b 0)) rasStateLostAdvisor (b 1)) rasStateLostStaged (b 2)) rasStateLostStats (b 3)

def loseRecord (s : State) (kind id : Nat) : State :=
  let l := s.ras.lost
  syncLost { s with ras := { s.ras with lost := if l.contains (kind, id) then l else l ++ [(kind, id)] } }

/-- Records rewritten are no longer lost. -/
def foundRecords (s : State) (p : Nat × Nat → Bool) : State :=
  syncLost { s with ras := { s.ras with lost := s.ras.lost.filter (fun x => !(p x)) } }

def isLost (s : State) (kind id : Nat) : Bool := s.ras.lost.contains (kind, id)

/-! ### What an uncorrectable error does (R361, R364 to R366) -/

/-- The effect: the state after it, KIND, ACTION, the group affected, whether the command that met it fails. -/
structure Harm where
  st     : State
  kind   : Nat
  action : Nat
  group  : Nat
  fails  : Bool

/-- The resident tile a frame holds. -/
def frameTile (s : State) (f : Nat) : Option (Nat × TileDir) :=
  s.tiles.find? (fun p => p.2.state == .resident && p.2.frame == f)

/-- The frame and row a damaged word of classes 0 and 1 lies in. -/
def damageRow (s : State) (d : Damage) : Option (Nat × Nat) := rowFrame s d.unit (if d.cls = 0 then d.word / 256 else d.word / 4)

/-- An uncorrectable error in frame `f` (R364): a clean cached tile is fetched again from its home, any other is spoiled. -/
def harmFrame (s : State) (f : Nat) : Harm :=
  match frameTile s f with
  | none => ⟨s, 2, 0, 0xFF, false⟩
  | some (k, t) =>
    let g := k / 2 ^ 14
    let x := groupOf s g
    if !t.dirty && cachedKey s k then
      let cells := (tileCells x (k % 2 ^ 14)).map (fun p => (p.1, homeRead s x p.2.1 p.2.2))
      ⟨bump (newFrame s f cells) scrFetchesCount 1, 3, 2, g, false⟩
    else ⟨spoilTile s g (k % 2 ^ 14), 2, 4, g, true⟩

/-- The record a damaged word of class 8 belongs to: kind and number (DESIGN CHOICE, log 44: set 0 config, 1 committed, 2 staged,
3 committed statistics, 4 staged statistics). -/
def class8Record (d : Damage) : Nat × Nat :=
  match d.unit with
  | 0 => (1, d.word / 64 % 256)
  | 1 => (1, d.word / 64 % 256)
  | 2 => (2, d.word / 64 % 256)
  | 3 => (3, d.word / 4 % 256)
  | _ => (2, 256 + d.word / 4 % 256)

def failArray (s : State) (a : Nat) : State :=
  let m := rd s rasArrFailArrays
  if a < 24 && !(bitOf m a) then wr s rasArrFailArrays (m + 2 ^ a) else s

/-- The effect of a double-bit error of each class (R361). -/
def harm (s : State) (d : Damage) : Harm :=
  match d.cls with
  | 0 => match damageRow s d with
    | some x => harmFrame s x.1
    | none => ⟨s, 2, 0, 0xFF, false⟩
  | 1 => match damageRow s d with
    | some x => harmFrame s x.1
    | none => ⟨s, 2, 0, 0xFF, false⟩
  | 2 => ⟨breakGroup s (d.word / 2 ^ 14 % 64), 2, 5, d.word / 2 ^ 14 % 64, true⟩
  | 3 => ⟨s, 2, 3, 0xFF, true⟩
  | 4 => ⟨failArray s d.unit, 2, 6, 0xFF, true⟩
  | 5 => ⟨failArray s d.unit, 2, 6, 0xFF, true⟩
  | 6 => ⟨s, 2, 3, 0xFF, true⟩
  | 7 => ⟨loseRecord s 0 (d.word / 4 % 4096), 2, 7, 0xFF, false⟩
  | 8 => let r := class8Record d; ⟨loseRecord s r.1 r.2, 2, 7, 0xFF, false⟩
  | 9 => ⟨s, 2, 8, 0xFF, true⟩
  | 10 =>
    if d.unit = 0 then ⟨{ s with lcache := s.lcache.eraseIdx d.word }, 3, 2, 0xFF, false⟩
    else ⟨s, 2, 8, 0xFF, true⟩
  | _ => ⟨s, 2, 0, 0xFF, false⟩

/-- UNIT and LOCATION of a damaged word in a record (R372). -/
def logUnit (d : Damage) : Nat := if d.cls ≤ 1 || (3 ≤ d.cls && d.cls ≤ 6) then d.unit else 0xFF
def logLoc (d : Damage) : Nat :=
  match d.cls with
  | 0 => d.word / 256 | 1 => d.word / 4 | 4 => d.word % 65536 | 7 => d.word / 4
  | _ => d.word

/-- A command or the scrubber meets a damaged word: corrected and counted, or its class's effect (R363, R368). The second component
says whether the command fails. -/
def takeError (s : State) (d : Damage) (c : Option Cmd) : State × Bool :=
  let q := logCmd c
  let l := s.ras.damage
  if d.double then
    let h := harm { s with ras := { s.ras with damage := l.erase d } } d
    let s := bankCount (ueCount h.st d.cls) d.cls d.unit true
    (withSyndrome s (fun x s => logPut s ⟨h.kind, d.cls, h.action, logUnit d, logLoc d, 0, x, q.1, h.group, q.2⟩), h.fails)
  else
    let s := { s with ras := { s.ras with damage := l.map (fun e => if e == d then { e with back := true } else e) } }
    let s := withSyndrome s (fun x s => logPut s ⟨1, d.cls, 1, logUnit d, logLoc d, 0, x, q.1, 0xFF, q.2⟩)
    (bucketAdd (bankCount s d.cls d.unit false) d.cls, false)

/-- Meet every damaged word of a set that no corrected copy waits for. -/
def meetDamage (s : State) (p : Damage → Bool) (c : Option Cmd) : State × Bool :=
  (s.ras.damage.filter (fun d => !d.back && p d)).foldl (fun a d =>
    let r := takeError a.1 d c
    (r.1, a.2 || r.2)) (s, false)

/-- Whether a damaged word of classes 0 to 2 lies in tile `k`: V = 0 entries are never checked (R146, R364). -/
def damageInTile (s : State) (k : Nat) (d : Damage) : Bool :=
  if d.cls = 2 then d.word == k
  else if 1 < d.cls then false
  else
    let t := tget tileEmpty s.tiles k
    match damageRow s d with
    | some (f, r) => t.state == .resident && t.frame == f && (d.cls == 1 || (tfind (frameOf s f) (r * 256 + d.word % 256)).isSome)
    | none => false

/-- A read of a tile, and of every tile of a group. -/
def meetTile (s : State) (k : Nat) (c : Option Cmd) : State × Bool := meetDamage s (damageInTile s k) c
def meetGroup (s : State) (g : Nat) (c : Option Cmd) : State × Bool :=
  meetDamage s (fun d => if d.cls = 2 then d.word / 2 ^ 14 == g else s.tiles.any (fun p => p.1 / 2 ^ 14 == g && damageInTile s p.1 d)) c

/-! ### Eviction and fetch (R163, R164) -/

/-- Write every entry of a tile inside the shape to its binary64 home, V = 0 entries as +0 (R164). -/
def writeHome64 (s : State) (g t : Nat) : State :=
  let x := groupOf s g
  (tileCells x t).foldl (fun s p => s.store (homeEntry x p.2.1 p.2.2) (natLE (readEntry s g t p.1).toNat 8)) s

/-- Evict a tile (R164): a dirty one is written home and counted; its entry becomes HOME and its frame is free. An uncorrectable word is
not written (R367). -/
def evictTile (s : State) (k : Nat) : State :=
  let g := k / 2 ^ 14
  let t := k % 2 ^ 14
  let m := if (tileOf s g t).dirty then meetTile s k none else (s, false)
  let s := m.1
  let d := tileOf s g t
  let s := if d.dirty && !m.2 then bump (writeHome64 s g t) scrEvictionsCount 1 else s
  setTile (dropFrame s d.frame) g t { d with state := .home, frame := 0, dirty := false }

/-- Bring a tile into a frame known to be free (R163): cleared, or read exactly from its home and counted. A cleared frame differs from the
home buffer (R149). -/
def fetchTile (s : State) (g t : Nat) : State :=
  let x := groupOf s g
  let d := tileOf s g t
  let f := lowestFrame s
  let reads := d.state == .home || x.init
  let cells := if reads then (tileCells x t).map (fun p => (p.1, homeRead s x p.2.1 p.2.2)) else []
  let s := setTile (newFrame s f cells) g t { d with state := .resident, frame := f, dirty := !reads }
  let s := if reads then bump s scrFetchesCount 1 else s
  touchTile s g t

/-- Make a tile resident, evicting a victim when a cached tile needs a frame and none is free (R163, R164);
`none` when no victim can be had. -/
def makeResident (s : State) (g t : Nat) : Option State :=
  if (tileOf s g t).state == .resident then some (touchTile s g t)
  else if pinned (groupOf s g) || 0 < freeFrames s then some (fetchTile s g t)
  else match victim s with
    | some k => some (fetchTile (evictTile s k) g t)
    | none => none

/-! ### What a command meets -/

/-- The streamed rows of a command: M of a product, N of GATHER and SCATTER (R301, R303); none otherwise. -/
def cmdRows (d : List Byte) : Option Nat :=
  match dOp d with
  | 0x02 => some (dNum d 0x50 4) | 0x03 => some (dNum d 0x50 4) | 0x04 => some (dNum d 0x50 4)
  | 0x05 => some (dNum d 0x50 4) | 0x18 => some (dNum d 0x40 4) | 0x19 => some (dNum d 0x40 4)
  | _ => none

/-- Whether the command takes a ledger view: it streams rows and names a tag array. -/
def takesView (d : List Byte) : Bool := (cmdRows d).isSome && dTags d != 0

/-- Whether a lost record makes the command fail (R366). -/
def lostFails (s : State) (b : List Byte) : Bool :=
  s.ras.lost.any (fun p => (takesView b && p.1 == 0) || dOp b == 0x23 && p.1 != 0 ||
    (dAdvObs b || dAdvUse b) && p == (1, dAdvId b))

/-- The damaged words outside the Screed and the arrays that a command reads: the ledger, advisor and statistics, receive contexts, the
RSU's transit buffers (R361). -/
def cmdDamage (c : Cmd) (d : Damage) : Bool :=
  let b := c.desc
  let op := dOp b
  let rsu := op == 0x20 || op == 0x21
  match d.cls with
  | 6 => 6 ≤ d.unit && (rsu || op == 0x28)
  | 7 => takesView b || (op == 0x28 && bitOf (dNum b 0x3B 1) 1) || (op == 0x32 && bitsOf (dNum b 0x28 1) 0 4 != 6)
  | 8 => op == 0x23 || ((dAdvObs b || dAdvUse b) && d.unit ≤ 2 && d.word / 64 % 256 == dAdvId b)
  | 9 => rsu
  | _ => false

def meetUnit (s : State) (c : Cmd) : State × Bool :=
  let m := meetDamage s (cmdDamage c) (some c)
  (m.1, m.2 || lostFails m.1 c.desc)

end Sys2Proof.Machine
end

