-- ==== Sys2Proof/Machine/Unit.lean ====
section
/-! DEFINITION. The frame every unit works in: a started command is run to its end by its unit, the parts that met an
M-port error or a fault abort it (R196, R317, R322). -/

namespace Sys2Proof.Machine

/-- The group a command writes into under R152, if any: folds, FOLD, RECV, SCATTER into a group. -/
def writesGroup (d : List Byte) : Option Nat :=
  let mode := dNum d 0x67 1
  match dOp d with
  | 0x02 => if bitOf mode 0 then some (bitsOf (dNum d 0x57 1) 0 6) else none
  | 0x03 => if bitOf mode 0 then some (bitsOf (dNum d 0x57 1) 0 6) else none
  | 0x04 => some (bitsOf (dNum d 0x57 1) 0 6)
  | 0x05 => if bitOf mode 1 then none else some (bitsOf (dNum d 0x57 1) 0 6)
  | 0x06 => some (bitsOf (dNum d 0x3D 1) 0 6)
  | 0x19 => if bitOf (dNum d 0x4C 1) 0 && bitOf (dNum d 0x4C 1) 1 then some (bitsOf (dNum d 0x4B 1) 0 6) else none
  | 0x21 => if bitsOf (dNum d 0x33 1) 0 2 = 1 then none else some (bitsOf (dNum d 0x32 1) 0 6)
  | _ => none

/-- The adapter group a PAIR with ADAPT = 1 writes (R139). -/
def adapterGroup (d : List Byte) : Option Nat :=
  if dOp d = 0x05 && bitOf (dNum d 0x67 1) 2 then some (bitsOf (dNum d 0x5B 1) 0 6) else none

/-- Every group a command writes into. -/
def writtenGroups (d : List Byte) : List Nat := (writesGroup d).toList ++ (adapterGroup d).toList

/-- The groups a command reads as a whole: SEND, APPLY other than COPY, GSAVE, flush (R308). -/
def wholeReads (d : List Byte) : List Nat :=
  match dOp d with
  | 0x08 => if bitOf (dNum d 0x2F 1) 0 then [] else [bitsOf (dNum d 0x2E 1) 0 6]
  | 0x20 =>
    let m := dNum d 0x33 1
    if bitsOf m 0 2 = 1 || (bitsOf m 0 2 = 0 && bitOf m 3) then [] else [bitsOf (dNum d 0x32 1) 0 6]
  | 0x22 => if bitsOf (dNum d 0x31 1) 0 3 = 4 then [] else [bitsOf (dNum d 0x30 1) 0 6]
  | _ => []

/-- The groups a command replaces: GCLEAR, GRESTORE (R308). -/
def replaces (d : List Byte) : List Nat :=
  match dOp d with
  | 0x07 => [bitsOf (dNum d 0x2F 1) 0 6]
  | 0x09 => if bitOf (dNum d 0x2F 1) 0 then [] else [bitsOf (dNum d 0x2E 1) 0 6]
  | _ => []

/-- Make a group TORN by an abort with stamp `st` (R152): only an OPEN group changes. -/
def tearGroup (s : State) (g st : Nat) : State :=
  let x := groupOf s g
  if x.state == .open then setEvt (setGroup s g { x with state := .torn, torn := st }) evTorn else s

/-- Tear every group the command writes into, those whose GEN is still the latched one (R152, R159). -/
def tearWritten (s : State) (c : Cmd) : State :=
  (writtenGroups c.desc).foldl (fun s g =>
    if (c.gens.find? (fun p => p.1 == g)).all (fun p => p.2 == (groupOf s g).gen) then
      tearGroup s g (dStamp c.desc) else s) s

/-- The highest status among the parts that failed (R322). -/
def worstErr (c : Cmd) : Nat := c.errs.foldl (fun a e => max a e.2) 0

/-- An error of the part on a core. -/
def noteErr (c : Cmd) (core status : Nat) : Cmd := { c with errs := c.errs ++ [(core, status)] }

/-- What the record of a COMMIT or an ABANDON carries however it ends: the parity and, unless a check of R300 has set RESULT, the committed step
(R321). -/
def epochMark (s : State) (c : Cmd) : Cmd :=
  if dOp c.desc = 0x23 || dOp c.desc = 0x24 then
    { c with flags := c.flags ||| flagIf (s.epoch.parity = 1) flParity, result := if c.result = 0 then s.epoch.step else c.result }
  else c

/-- Abort a command whose part failed (R196, R152). -/
def abortCmd (s : State) (c : Cmd) : State :=
  modCmd (endCmd (tearWritten s c) c.key (worstErr c) 0 c.result) c.key (epochMark s)

/-- The bytes written in this step go out, one request for each granule, as the credits allow, and the command completes only once they
are acknowledged (R193, R317). -/
def awaitWrites (s : State) (key core : Nat) : State := askRuns s true (writtenRuns s.wbuf) (.cmdWrite key core)

/-- FMT.STAGED.STEP: the committed step plus 1 (R77). -/
def nextStep (s : State) : Nat := (s.epoch.step + 1) % 2 ^ 32

/-- A class-0 command begins as its unit takes it: its latency from the doorbell instant to now (R313, R324), in timestamps (DESIGN CHOICE,
log 17). -/
def noteBegin (s : State) (c : Cmd) : State :=
  if c.key < firedKey && rd s (queRingCtlClass c.q) = 0 then
    let l := min (now s - c.bell) 65535
    let s := wr (wr s cmdClass0LatLast l) cmdClass0LatMax (max l (rd s cmdClass0LatMax))
    if 800 < l then setEvt (bump s cmdClass0LatOver 1) evClass0Over else s
  else s

/-- Whether reads of a command are outstanding. -/
def readsWait (s : State) (key : Nat) : Bool := (openReqs s).any (fun r => match r.why with
  | .cmdRead k _ _ => k == key
  | _ => false)

/-- Whether writes of a command still await their acknowledgement (R236, R317). -/
def writesPending (s : State) (key : Nat) : Bool := (openReqs s).any (fun r => match r.why with
  | .cmdWrite k _ => k == key
  | _ => false)

/-- Started commands, those with a record for something that never started aside. -/
def startedCmd (c : Cmd) : Bool := c.status != stFlushed && c.status != stBadOpcode && !c.desc.isEmpty || !c.refused

/-- Whether a SNAP holds the epoch: from its capture until the last PARAMS byte has been read (R329). -/
def epochHeld (s : State) : Bool :=
  s.cmds.any (fun c => dOp c.desc == 0x28 && c.phase == .begun && c.asked == 1 && readsWait s c.key)

/-- RESTORE and BIST work alone (R335, R413). -/
def worksAlone (c : Cmd) : Bool := dOp c.desc == 0x29 || dOp c.desc == 0x38

/-- Whether RESTORE or BIST keeps a started command from its units: while either is at work no other command is (R335, R413). -/
def heldBack (s : State) (c : Cmd) : Bool :=
  s.cmds.any (fun e => e.key != c.key && e.phase != .ended && e.phase != .recorded && worksAlone e)

/-- Whether a started command is its unit's to run: its reads are answered and nothing holds it. -/
def runnable (s : State) (c : Cmd) : Bool :=
  unitsRun s && c.phase == .started && !c.saved && !(readsWait s c.key) && !(heldBack s c)

/-- Run a command that its unit has: `f` gives the effect unless a part has failed or an uncorrectable error is met (R196, R361). -/
def actUnit (s : State) (c : Cmd) (f : State → Cmd → State) : State :=
  let m := meetUnit s c
  if m.2 then abortCmd m.1 (noteErr c 7 stFault)
  else if c.errs.isEmpty then f (readView m.1 c.key 7) c
  else abortCmd m.1 c

/-- Run a started command to its end in one step: `f` gives the effect, `ok` says which commands are this row's. -/
def runUnit (s : State) (key : Nat) (ok : Cmd → Bool) (f : State → Cmd → State) : Host.Outcome State Fault Refusal :=
  match findCmd s key with
  | some c => if runnable s c && ok c then .next (settle s (awaitWrites (actUnit s c f) key 7)) else .next s
  | none => .next s

/-- The class of a queue (R310). -/
def classOf (s : State) (q : Nat) : Nat := rd s (queRingCtlClass q)

/-- Commands in the order of arbitration: class, doorbell instant, queue (R311). -/
def arbitration (s : State) : List Cmd :=
  sortBy (fun c => classOf s c.q) (sortBy (fun c => c.bell) (sortBy (fun c => c.q) s.cmds))

/-- Whether `c` comes before `e` where ready commands compete: class, doorbell instant, queue (R311). -/
def goesBefore (s : State) (c e : Cmd) : Bool :=
  classOf s c.q < classOf s e.q || (classOf s c.q == classOf s e.q && (c.bell < e.bell || (c.bell == e.bell && c.q ≤ e.q)))

/-- Whether none of the commands that are ready for a unit goes before `c` (R311); `ready` is the unit's own condition. -/
def unitTurn (s : State) (c : Cmd) (ready : Cmd → Bool) : Bool :=
  s.cmds.all (fun e => e.key == c.key || !(runnable s e && ready e) || goesBefore s c e)

/-- Whether the descriptor's opcode is `op`. -/
def isOp (op : Nat) (c : Cmd) : Bool := dOp c.desc == op

end Sys2Proof.Machine
end

