-- ==== Sys2Proof/Machine/Advisor.lean ====
section
/-! DEFINITION. The format advisor (03 R75 to R84): loss, acceptance, choices, merging of counts, the layer records. -/

namespace Sys2Proof.Machine

def layerOf (s : State) (id : Nat) : AdvLayer := tget advLayerReset s.advisor id
def setLayer (s : State) (id : Nat) (x : AdvLayer) : State := { s with advisor := tput advLayerReset s.advisor id x }

/-- The sum of the bins whose number satisfies `p`. -/
def binSum (bins : List (Nat × Nat)) (p : Nat → Bool) : Nat := bins.foldl (fun n b => if p b.1 then n + b.2 else n) 0

/-- Whether an absolute bin lies wholly below exponent `e`, and above it (R76). -/
def binBelow (e : Int) (b : Nat) : Bool := b == 0 || (b ≤ 64 && (b : Int) - 49 < e)
def binAbove (e : Int) (b : Nat) : Bool := b == 65 || (1 ≤ b && e < (b : Int) - 49)

/-- Lost and overflow counts of a ladder position (R78). -/
def dxLoss (a : AdvCounts) (pos : Nat) : Nat :=
  let rel := fun n => binSum a.rel (fun b => n < b)
  let abs := fun lo hi => binSum a.abs (fun b => binBelow lo b || binAbove hi b)
  match pos with
  | 0 => rel 4
  | 1 => rel 6
  | 2 => rel 9
  | 3 => abs (-10) 8
  | 4 => abs (-17) 15
  | 5 => rel 18
  | 6 => rel 32
  | 7 => abs (-25) 15
  | _ => 0

/-- Whether a position is accepted (R78, R79). -/
def dxAccepted (lossLog2 : Nat) (a : AdvCounts) (pos : Nat) : Bool :=
  dxLoss a pos * 2 ^ lossLog2 ≤ binSum a.abs (fun _ => true)
def homeAccepted (lossLog2 : Nat) (a : AdvCounts) (pos : Nat) : Bool :=
  pos == 1 || (a.foldLo + a.foldHi) * 2 ^ lossLog2 ≤ a.foldNz

/-- The computed choice: the lowest accepted position of the mask, else its highest (R80). -/
def computedChoice (mask n : Nat) (ok : Nat → Bool) : Nat :=
  let ps := (List.range n).filter (bitOf mask)
  match ps.find? ok with
  | some p => p
  | none => (ps.getLast?).getD 0

/-- One commit of a choice: live, pending, count (R80). -/
def commitChoice (hold live pending count c : Nat) : Nat × Nat × Nat :=
  if live ≤ c then (c, pending, 0)
  else
    let n := if c = pending then count + 1 else 1
    if hold ≤ n then (c, c, 0) else (live, c, n)

/-- A layer's choices if COMMIT ran now (R80). -/
def evalLayer (s : State) (x : AdvLayer) : AdvLive :=
  let l := rd s fmtAdvCtlLossLog2
  let h := rd s fmtAdvCtlNarrowHold
  let a := x.stCounts
  let v := x.live
  let d := if binSum a.abs (fun _ => true) = 0 || x.dxMask = 0 then (v.dxLive, v.dxPending, v.dxCount)
    else commitChoice h v.dxLive v.dxPending v.dxCount (computedChoice x.dxMask 10 (dxAccepted l a))
  let m := if a.foldNz = 0 || x.homeMask = 0 then (v.homeLive, v.homePending, v.homeCount)
    else commitChoice h v.homeLive v.homePending v.homeCount (computedChoice x.homeMask 2 (homeAccepted l a))
  ⟨d.1, d.2.1, d.2.2, m.1, m.2.1, m.2.2⟩

/-- ADVISOR_EVALUATION: the outstanding evaluation of a layer (R80). -/
def execAdvisorEvaluation (layer : BitVec 8) (s : State) : Host.Outcome State Fault Refusal :=
  let x := layerOf s layer.toNat
  if unitsRun s && x.stale then .next (settle s (setLayer s layer.toNat { x with staged := evalLayer s x, stale := false }))
  else .next s

/-- The choices of a layer change over at COMMIT (R80). -/
def commitLayer (s : State) (x : AdvLayer) : AdvLayer :=
  let v := evalLayer s x
  { x with live := v, staged := v, comMask := (x.dxMask, x.homeMask), comCounts := x.stCounts, stCounts := advCountsZero, stale := false }

/-- Every listed layer mapped; a layer back at its reset value is unlisted. -/
def mapLayers (s : State) (f : AdvLayer → AdvLayer) : State :=
  { s with advisor := s.advisor.foldr (fun p l => tput advLayerReset l p.1 (f p.2)) [] }

/-- The flip of the advisor (R80, R287). -/
def flipAdvisor (s : State) : State := mapLayers s (commitLayer s)

/-- The staged records cleared by ABANDON (R77). -/
def clearStagedAdvisor (s : State) : State :=
  mapLayers s (fun x => { x with stCounts := advCountsZero, staged := x.live, stale := false })

/-- The saturating sum of two tables of 32-bit counts. -/
def addBins (a b : List (Nat × Nat)) : List (Nat × Nat) := b.foldl (fun l p => tmod 0 l p.1 (fun n => satAdd 32 n p.2)) a

def addCounts (a b : AdvCounts) : AdvCounts :=
  ⟨addBins a.abs b.abs, addBins a.rel b.rel, satAdd 32 a.zero b.zero, satAdd 32 a.nonfinite b.nonfinite,
    satAdd 32 a.foldNz b.foldNz, satAdd 32 a.foldLo b.foldLo, satAdd 32 a.foldHi b.foldHi, satAdd 32 a.screenNf b.screenNf⟩

/-- Whether an opcode passes a tap of R76. -/
def observes (d : List Byte) : Bool :=
  let op := dOp d
  dAdvObs d && (op == 2 || op == 3 || op == 4 || op == 5 || op == 6 || op == 0x18 || op == 0x19 ||
    (op == 0x21 && bitsOf (dNum d 0x33 1) 0 2 == 2))

/-- The counts of a command that completes are merged or dropped (R77). -/
def advMerge (s : State) (c : Cmd) : State :=
  if !(observes c.desc) || c.refused then s
  else if dStep c.desc = nextStep s && c.attempt = s.epoch.attempt && c.status ≠ stFpTrap then
    let id := dAdvId c.desc
    let x := layerOf s id
    setLayer s id { x with stCounts := addCounts x.stCounts c.adv, stale := x.stale || c.adv != advCountsZero }
  else setEvt (bump s fmtAdvStaleCount 1) evAdvStale

/-! ### Layer records (R82) -/

/-- Two 32-bit counts as a word, the first low. -/
def twoCounts (lo hi : Nat) : Nat := lo + hi * 2 ^ 32

/-- The choice word. -/
def liveWord (v : AdvLive) : Nat :=
  v.dxLive + v.dxPending * 2 ^ 4 + v.dxCount * 2 ^ 8 + v.homeLive * 2 ^ 16 + v.homePending * 2 ^ 17 + v.homeCount * 2 ^ 20

/-- The count words 2 to 54. -/
def countWord (a : AdvCounts) (w : Nat) : Nat :=
  if w < 35 then twoCounts (tget 0 a.abs (2 * (w - 2))) (tget 0 a.abs (2 * (w - 2) + 1))
  else if w < 52 then twoCounts (tget 0 a.rel (2 * (w - 35))) (tget 0 a.rel (2 * (w - 35) + 1))
  else if w = 52 then twoCounts a.zero a.nonfinite
  else if w = 53 then twoCounts a.foldNz a.foldLo
  else if w = 54 then twoCounts a.foldHi a.screenNf
  else 0

def maskWord (m : Nat × Nat) : Nat := m.1 + m.2 * 2 ^ 16

/-- Word `w` of a layer in set 0 config, 1 committed, 2 staged; reserved words and the reserved set read 0 (R14, R82). -/
def advWord (s : State) (layer set w : Nat) : Nat :=
  let x := layerOf s layer
  match set with
  | 0 => if w = 0 then maskWord (x.dxMask, x.homeMask) else 0
  | 1 => if w = 0 then maskWord x.comMask else if w = 1 then liveWord x.live else countWord x.comCounts w
  | 2 => if w = 0 then maskWord x.comMask else if w = 1 then liveWord x.staged else countWord x.stCounts w
  | _ => 0

end Sys2Proof.Machine
end

