-- ==== Sys2Proof/Machine/Deriv.lean ====
section
/-! DEFINITION. The derivative stage (05_gradient_pair R132 to R137, R441): f′ exactly or correctly rounded to FP32,
and dY′ in the format of dY. The FP32 entries are worked out in fixed point with 1,024 fraction bits and rounded once
(log 16). -/

namespace Sys2Proof.Machine

/-! ### Fixed point -/

/-- Fraction bits of the fixed-point numbers. -/
def fxP : Nat := 1024

def fxOne : Int := (2 ^ fxP : Nat)

def fxMul (a b : Int) : Int := (a * b) >>> fxP

def fxDiv (a b : Int) : Int := (a * fxOne) / b

/-- A dyadic in fixed point, rounded down. -/
def fxOfDy (d : Int × Int) : Int :=
  let k := d.2 + (fxP : Int)
  if 0 ≤ k then d.1 * 2 ^ k.toNat else d.1 >>> (-k).toNat

/-- `n` terms of the exponential series from term `t` number `i`. -/
def expTerms (x : Int) : Nat → Nat → Int → Int
  | 0, _, _ => 0
  | n + 1, i, t => t + expTerms x n (i + 1) (fxMul t x / ((i : Int) + 1))

/-- e^x for |x| at most 512: the series at x / 2^16, squared 16 times. -/
def fxExp (x : Int) : Int := iter (fun y => fxMul y y) 16 (expTerms (x >>> 16) 110 0 fxOne)

/-- `n` terms of atan(1/k), from odd denominator `i` and power `p`. -/
def atanTerms (k2 : Int) : Nat → Nat → Int → Bool → Int
  | 0, _, _, _ => 0
  | n + 1, i, p, neg => (if neg then -(p / (i : Int)) else p / (i : Int)) + atanTerms k2 n (i + 2) (p / k2) (!neg)

/-- π in fixed point, by Machin's formula. -/
def fxPi : Int := 16 * atanTerms 25 260 1 (fxOne / 5) false - 4 * atanTerms 57121 80 1 (fxOne / 239) false

/-- 1 / √(2π) in fixed point. -/
def fxInvSqrt2Pi : Int := (isqrt (2 ^ (3 * fxP) / (2 * fxPi).toNat) : Nat)

/-- `n` terms of Σ z^(2i+1) / (2i+1)!! from term `t`. -/
def phiTerms (z2 : Int) : Nat → Nat → Int → Int
  | 0, _, _ => 0
  | n + 1, i, t => t + phiTerms z2 n (i + 2) (fxMul t z2 / (i : Int))

/-- Φ(z) + z φ(z) for |z| at most 20. -/
def fxGelu (z : Int) : Int :=
  let z2 := fxMul z z
  let phi := fxMul (fxExp (-(z2 >>> 1))) fxInvSqrt2Pi
  fxOne / 2 + fxMul phi (phiTerms z2 1300 3 z) + fxMul z phi

/-- A fixed-point number as a value. -/
def fxVal (n : Int) : Val := .fin (n < 0) n.natAbs (-(fxP : Int))

/-- A value rounded to FP32 once; a zero is +0 (R441). -/
def fxRound (n : Int) : Val :=
  let v := decodeFloat ffFP32 (f32Round (fxVal n))
  if v.isZero then .fin false 0 0 else v

/-- A finite value in fixed point, cut to magnitude `lim`: beyond it the FP32 result no longer changes. -/
def fxClamp (v : Val) (lim : Nat) : Int :=
  let l : Int := (lim : Int) * fxOne
  match floorLog2 v with
  | none => 0
  | some e => if 10 ≤ e then (if (valDy v).1 < 0 then -l else l) else max (-l) (min l (fxOfDy (valDy v)))

/-! ### f′ -/

/-- The FP32 entries of R134, by function and whether the source is y (softplus only). -/
inductive Deriv32 where
  | sigmoid
  | tanh
  | softplusY
  | softplusZ
  | gelu
  | silu
  deriving DecidableEq, Repr

/-- An FP32 entry at a finite saved element (R134). -/
def deriv32 (f : Deriv32) (v : Val) : Val :=
  match f with
  | .sigmoid =>
    let u := fxExp (-(fxClamp v 256).natAbs)
    fxRound (fxDiv u (fxMul (fxOne + u) (fxOne + u)))
  | .tanh =>
    let u := fxExp (-2 * ((fxClamp v 128).natAbs : Int))
    fxRound (fxDiv (4 * u) (fxMul (fxOne + u) (fxOne + u)))
  | .softplusY =>
    let y := fxClamp v 256
    let u := fxExp (-(y.natAbs : Int))
    fxRound (if 0 ≤ y then fxOne - u else fxOne - fxDiv fxOne u)
  | .softplusZ =>
    let z := fxClamp v 256
    let u := fxExp (-(z.natAbs : Int))
    fxRound (if 0 ≤ z then fxDiv fxOne (fxOne + u) else fxDiv u (fxOne + u))
  | .gelu => fxRound (fxGelu (fxClamp v 20))
  | .silu =>
    let z := fxClamp v 256
    let u := fxExp (-(z.natAbs : Int))
    let sg := if 0 ≤ z then fxDiv fxOne (fxOne + u) else fxDiv u (fxOne + u)
    let ng := if 0 ≤ z then fxDiv u (fxOne + u) else fxDiv fxOne (fxOne + u)
    fxRound (fxMul sg (fxOne + fxMul z ng))

/-- The limits of the FP32 entries at an infinite saved element (R441). -/
def deriv32Inf (f : Deriv32) (neg : Bool) : Val :=
  match f with
  | .sigmoid => .fin false 0 0
  | .tanh => .fin false 0 0
  | .softplusY => if neg then .inf true else .fin false 1 0
  | _ => if neg then .fin false 0 0 else .fin false 1 0

/-- An FP32 entry at any saved element (R134, R441). -/
def deriv32At (f : Deriv32) (v : Val) : Val :=
  match v with
  | .nan => .nan
  | .inf neg => deriv32Inf f neg
  | v => deriv32 f v

/-- α·e^z rounded once to FP32, with the sign of α when it is zero (R134, R441). -/
def eluZ (alpha v : Val) : Val :=
  let neg := match alpha with
    | .fin s _ _ => s
    | .inf s => s
    | .nan => false
  match v with
  | .nan => .nan
  | .inf _ => .fin neg 0 0
  | v =>
    let e := fxExp (-((fxClamp v 256).natAbs : Int))
    let p := mulVal alpha (.fin false e.natAbs (-(fxP : Int)))
    match decodeFloat ffFP32 (f32Round p) with
    | .fin _ 0 _ => .fin neg 0 0
    | w => w

/-- `v > 0` as an IEEE comparison. -/
def posVal : Val → Bool
  | .fin neg m _ => !neg && m != 0
  | .inf neg => !neg
  | .nan => false

def valOne : Val := .fin false 1 0
def valZero : Val := .fin false 0 0

/-- A NaN source gives NaN, whatever the function (R441). -/
def nanOr (v r : Val) : Val := if v.isNaN then .nan else r

/-- f′ from a saved element: DFUNC, DSRC (0b01 from y, 0b10 from z), α (R134, R441). -/
def derivElem (dfunc dsrc : Nat) (alpha v : Val) : Val :=
  let fromY := dsrc == 1
  match dfunc with
  | 0x1 => if fromY then mulVal v (sumVals [valOne, negVal v]) else deriv32At .sigmoid v
  | 0x2 => if fromY then sumVals [valOne, negVal (mulVal v v)] else deriv32At .tanh v
  | 0x3 => nanOr v (if posVal v then valOne else valZero)
  | 0x4 => nanOr v (if posVal v then valOne else alpha)
  | 0x5 =>
    if fromY then nanOr v (if posVal v then valOne else sumVals [v, alpha])
    else nanOr v (if posVal v then valOne else eluZ alpha v)
  | 0x6 => if fromY then deriv32At .softplusY v else deriv32At .softplusZ v
  | 0x7 => deriv32At .gelu v
  | 0x8 => deriv32At .silu v
  | _ => valOne

/-- f′ from a mask bit (R134, R135). -/
def derivMask (dfunc : Nat) (alpha : Val) (b : Bool) : Val :=
  match dfunc with
  | 0x1 => .fin false 1 (-2)
  | 0x2 => valOne
  | 0x4 => if b then valOne else alpha
  | 0x5 => if b then valOne else scaleVal alpha (-1)
  | 0x6 => if b then .fin false 3 (-2) else .fin false 1 (-2)
  | _ => if b then valOne else valZero

/-- Whether a DFUNC and DSRC pair is valid (R134). -/
def derivValid (dfunc dsrc : Nat) : Bool :=
  if dfunc = 0 then dsrc == 0
  else if 9 ≤ dfunc || dsrc = 0 then false
  else if dsrc = 1 then dfunc ≤ 6 else true

/-- Whether the surrogate flags are set (R135). -/
def derivSurrogate (dfunc dsrc : Nat) : Bool := dsrc == 3 && dfunc != 3 && dfunc != 4

/-! ### dY′ (R136, R137) -/

/-- A plain or INT8 element of dY′: its value and whether it counts in DERIV_SAT. -/
def dyPlain (f : ElemFmt) (p : Val) : Val × Bool :=
  match f.fmt with
  | .int8 =>
    match p with
    | .nan => (.fin false 0 0, true)
    | .inf neg => (if neg then .fin true 128 f.texp else .fin false 127 f.texp, true)
    | .fin neg m e =>
      let x := e - f.texp
      let n : Nat :=
        if 0 ≤ x then m * 2 ^ x.toNat
        else
          let d := (-x).toNat
          let lo := m >>> d
          if roundsUp .rne neg (lo % 2 == 1) (m % 2 ^ d) d then lo + 1 else lo
      if neg then (if n ≤ 128 then (.fin (n != 0) n f.texp, false) else (.fin true 128 f.texp, true))
      else if n ≤ 127 then (.fin false n f.texp, false) else (.fin false 127 f.texp, true)
  | fm =>
    match p with
    | .nan => (.nan, false)
    | .inf neg => (if fm == .e4m3 then .nan else .inf neg, false)
    | v => let q := storeFloat fm.ff .rne true v; (decodeFloat fm.ff q.1, q.2)

/-- Whether a value is an element of the format at scale exponent `x`. -/
def mxExact (ff : FloatFmt) (x : Int) (v : Val) : Bool :=
  match v with
  | .fin _ m _ =>
    let q := mxElem ff .rne x v
    let w := scaleVal (decodeFloat ff q.1) x
    m == 0 || (!q.2 && leVal v w && leVal w v)
  | _ => false

/-- Whether one scale holds every value of a block exactly: that R49 gives, or the next one where its largest element would clamp. -/
def mxHolds (fm : Fmt) (ps : List Val) : Bool :=
  match (ps.filterMap floorLog2).foldl (fun (a : Option Int) e => some (match a with
      | none => e
      | some g => max e g)) none with
  | none => ps.all (fun v => !v.nonFinite)
  | some e => [e - ffEmax fm.ff, e - ffEmax fm.ff + 1].any (fun x => -127 ≤ x && x ≤ 127 && ps.all (mxExact fm.ff x)) ||
      ps.all (mxExact fm.ff (-127))

/-- The elements of one MX block of dY′ from its exact products, which a block that can hold them keeps: values and DERIV_SAT count (R49, R136, R137). -/
def dyBlock (fm : Fmt) (ps : List Val) : List Val × Nat :=
  if mxHolds fm ps then (ps, 0)
  else
  let b := mxBlock ⟨fm, true, .rne, false, ⟨0, 0, 0, 0⟩⟩ (ps.map (fun p => (0, p)))
  (b.2.1.map (fun raw => elemVal ⟨fm, true, 0⟩ b.1 raw), if b.1 = 0xFE then b.2.2 else 0)

end Sys2Proof.Machine
end

