-- ==== Sys2Proof/Machine/Screed.lean ====
section
/-! DEFINITION. The Screed (06_screed): frames, tiles, groups, folds, eviction and fetch, the group commands, group
images and plane records. -/

namespace Sys2Proof.Machine

/-! ### Groups (R147 to R152) -/

/-- Discard the preloads bound to a group (R167). -/
def dropPreloads (s : State) (g : Nat) : State :=
  let n := (s.preloads.filter (fun p => p.group == g)).length
  bump { s with preloads := s.preloads.filter (fun p => p.group != g) } scrPreloadUnusedCount n

/-- Every tile of a group back to UNTOUCHED, its frames free. -/
def clearTiles (s : State) (g : Nat) : State :=
  let own := s.tiles.filter (fun p => p.1 / 2 ^ 14 == g)
  let s := own.foldl (fun s p => if p.2.state == .resident then dropFrame s p.2.frame else s) s
  { s with tiles := s.tiles.filter (fun p => p.1 / 2 ^ 14 != g) }

/-- A group emptied (R147): flags cleared, state OPEN, GEN advanced; `ab` for an ABANDON (R150, R159). -/
def emptiedGroup (ab : Bool) (x : Group) : Group :=
  { x with state := .open, torn := 0, gen := (x.gen + 1) % 256, poison := false, longsum := false,
           surrogate := false, abandoned := ab, reduced := false }

/-- Empty a group. -/
def emptyGroup (s : State) (g : Nat) (ab : Bool) : State :=
  let s := dropPreloads (clearTiles s g) g
  setGroup s g (emptiedGroup ab (groupOf s g))

/-- Raise the group's STEP and take the seed of a writer whose step is not lower (R150). -/
def raiseGroup (s : State) (g step seed : Nat) : State :=
  let x := groupOf s g
  if x.step ≤ step then setGroup s g { x with step := step, seed := seed } else s

/-! ### Folds (R153 to R160) -/

/-- What becomes of a fold that is about to begin (R152, R155, R159). -/
inductive Verdict where
  | go
  | refold
  | stale
  | dropped (status : Nat)
  | refused (status : Nat)
  deriving DecidableEq, Repr

/-- The status of a writer whose GEN no longer matches (R159). -/
def resetStatus (x : Group) : Nat := if x.abandoned then stAbandoned else stGroupReset

/-- Whether a write into the group may begin: GEN as latched, and the state as R152 asks for stamp `st`. -/
def writeCheck (x : Group) (gen st : Nat) : Verdict :=
  if x.gen ≠ gen then .dropped (resetStatus x)
  else match x.state with
    | .free => .dropped (resetStatus x)
    | .open => .go
    | .torn => if st = x.torn then .go else .refused stGroupTorn
    | .broken => .refused stGroupBroken

/-- The verdict on a fold into tile `t` (R153, R155). -/
def foldCheck (s : State) (g t gen st : Nat) : Verdict :=
  match writeCheck (groupOf s g) gen st with
  | .go =>
    let d := tileOf s g t
    if st = d.stamp then .refold else if st < d.stamp then .stale else .go
  | v => v

/-- The GEN a command latched for a group. -/
def genOf (c : Cmd) (g : Nat) : Nat := ((c.gens.find? (fun p => p.1 == g)).map (·.2)).getD 0

/-- What a fold does to its command: FLAGS and a late status (R155, R159). -/
structure FoldOut where
  flags  : Nat
  status : Nat
  adv    : AdvCounts
  deriving DecidableEq, Repr

/-- Count one binary64 fold result at the advisor's fold tap (R76). -/
def foldTap (a : AdvCounts) (v : BitVec 64) : AdvCounts :=
  match floorLog2 (decodeFloat ffB64 v.toNat) with
  | none => a
  | some e =>
    { a with foldNz := sat32c a.foldNz
             foldLo := if e < -150 then sat32c a.foldLo else a.foldLo
             foldHi := if 127 < e then sat32c a.foldHi else a.foldHi }
where sat32c (n : Nat) : Nat := satAdd 32 n 1

/-- Add the values of (key, value) pairs into a resident tile's frame, one binary64 addition each (R153). The
second component: the advisor counts and whether a NaN or Inf resulted. -/
def addEntries (fr : List (Nat × BitVec 64)) (a : AdvCounts) (cells : List (Nat × BitVec 64)) :
    List (Nat × BitVec 64) × AdvCounts × Bool :=
  cells.foldl (fun (p : List (Nat × BitVec 64) × AdvCounts × Bool) x =>
    let v := b64Add ((tfind p.1 x.1).getD 0) x.2
    (tins p.1 x.1 v, foldTap p.2.1 v, p.2.2 || b64NonFinite v)) (fr, a, false)

/-- The lowest row of tile `k` in which a fold meets an uncorrectable word; 0 for its directory entry (R158, R361). -/
def badRow (s : State) (k : Nat) : Nat :=
  (s.ras.damage.filter (fun d => d.double && !d.back && damageInTile s k d)).foldl
    (fun a d => min a (match if d.cls = 2 then none else damageRow s d with
      | some x => x.2
      | none => 0)) 256

/-- The rows a fold adds into a tile's frame: FOLD's part that an uncorrectable word does not stop (R153, R158). -/
def foldRows (s : State) (g t : Nat) (adv : AdvCounts) (cells : List (Nat × BitVec 64)) : State × AdvCounts :=
  let d := tileOf s g t
  let r := addEntries (frameOf s d.frame) adv cells
  let s := freshWords (setFrame s d.frame r.1) d.frame (fun k => cells.any (fun x => x.1 == k))
  let s := setTile s g t { d with dirty := true }
  let x := groupOf s g
  (if r.2.2 && !x.poison then setEvt (setGroup s g { x with poison := true }) evPoison else s, r.2.1)

/-- The additions of an accepted fold into tile `t` (R153, R150): the directory entry takes the stamp, the group STEP, seed
and POISON. An uncorrectable word stops it at its row, the stamp unchanged (R158). The caller sees to a frame (`frameFor`). -/
def foldCommit (s : State) (c : Cmd) (g t : Nat) (adv : AdvCounts) (cells : List (Nat × BitVec 64)) : State × FoldOut :=
  match makeResident s g t with
  | none => (s, ⟨0, 0, adv⟩)
  | some s1 =>
    let bad := badRow s1 (tileKey g t)
    let m := meetTile s1 (tileKey g t) (some c)
    if m.2 then
      let r := foldRows m.1 g t adv (cells.filter (fun x => x.1 / 256 < bad))
      (r.1, ⟨0, stFault, r.2⟩)
    else
      let r := foldRows m.1 g t adv cells
      let s := setTile r.1 g t { tileOf r.1 g t with stamp := dStamp c.desc }
      (raiseGroup (bump s scrFoldsCount 1) g (dStep c.desc) c.lat.seed, ⟨0, 0, r.2⟩)

/-- A fold whose group was emptied under it: its rows are dropped (R159). -/
def foldDropped (s : State) (status : Nat) (adv : AdvCounts) (cells : List (Nat × BitVec 64)) : State × FoldOut :=
  (bump s scrDroppedCount (cells.map (·.1 / 256)).eraseDups.length, ⟨0, status, adv⟩)

/-- Fold (key, binary64) cells into tile `t` of group `g` for command `c` (R153, R155, R159). -/
def foldCells (s : State) (c : Cmd) (g t : Nat) (adv : AdvCounts) (cells : List (Nat × BitVec 64)) : State × FoldOut :=
  match foldCheck s g t (genOf c g) (dStamp c.desc) with
  | .refold => (bump s scrRefoldsCount 1, ⟨flRefold, 0, adv⟩)
  | .stale =>
    let s := bump s scrStaleCount 1
    (if c.lat.staleBreak then breakGroup s g else s, ⟨flStale, 0, adv⟩)
  | .dropped v => foldDropped s v adv cells
  | .refused v => (s, ⟨0, v, adv⟩)
  | .go => foldCommit s c g t adv cells

/-- Whether a fold or RECV write of the command may begin: earlier writers of the queue into the group have ended (R157; that a RECV counts
here as a fold is DEDUCED from R31, log 51), and earlier readers of the whole group have completed (R308). -/
def foldTurn (s : State) (c : Cmd) (g : Nat) : Bool :=
  s.cmds.all (fun e => !(e.q == c.q && serialLt e.seq c.seq && !e.refused &&
    (((e.phase == .started || e.phase == .begun) && (writtenGroups e.desc).contains g) || (wholeReads e.desc).contains g)))

/-! Packet headers as received (R252). -/

def hKind (b : List Byte) : Nat := fieldAt b 0x04 1
def hFlags (b : List Byte) : Nat := fieldAt b 0x05 1
def hJob (b : List Byte) : Nat := fieldAt b 0x06 2
def hStep (b : List Byte) : Nat := fieldAt b 0x08 4
def hShard (b : List Byte) : Nat := fieldAt b 0x0C 2
def hSrc (b : List Byte) : Nat := fieldAt b 0x0E 2
def hSeq (b : List Byte) : Nat := fieldAt b 0x10 4
def hNpkt (b : List Byte) : Nat := fieldAt b 0x14 4
def hTile (b : List Byte) : Nat := fieldAt b 0x18 4
def hRow (b : List Byte) : Nat := fieldAt b 0x1C 2
def hNrows (b : List Byte) : Nat := fieldAt b 0x1E 2
def hDigest (b : List Byte) : Nat := fieldAt b 0x28 8
def hEmpty (b : List Byte) : Bool := bitOf (hFlags b) 4

/-- Whether a packet of the context holds row `r` of tile `t`. -/
def rowArrived (x : RxCtx) (t r : Nat) : Bool :=
  x.sources.any (fun y => y.pkts.any (fun p => hTile p.2 == t && hRow p.2 ≤ r && r < hRow p.2 + hNrows p.2))

/-- Whether the context has written tile `t` of a group of shape `a` in part only: rows are still to come or to be written. An EMPTY record
clears it whole. -/
def tilePartial (x : RxCtx) (a : Group) (t : Nat) : Bool :=
  !(x.sources.any (fun y => bitOf y.flags 4)) &&
    (!(x.waits.isEmpty) || (List.range (min 256 (a.rows - 256 * (t / groupTC a)))).any (fun r => !(rowArrived x t r)))

/-- Whether a RECV REDUCED into the group is in progress in one of its tiles (R160). -/
def recvBusy (s : State) (g : Nat) : Bool :=
  s.rxOpen.any (fun x => x.kind == 2 && (findCmd s x.key).any (fun c => (writtenGroups c.desc).contains g) &&
    x.wrote.any (tilePartial x (groupOf s g)))

/-- Whether a fold or RECV into a tile of the group is in progress: readers wait (R160). -/
def groupBusy (s : State) (g : Nat) : Bool := s.folds.any (fun f => f.group == g) || recvBusy s g

/-- Whether tile `t` can be made resident now (R163, R164). -/
def frameFor (s : State) (g t : Nat) : Bool :=
  (tileOf s g t).state == .resident || pinned (groupOf s g) || 0 < freeFrames s || (victim s).isSome

/-- Whether the command may write into tile `t` now: in its turn, with no fold holding the tile and a frame to be had (R153, R157, R160). -/
def tileMay (s : State) (c : Cmd) (g t : Nat) : Bool := foldTurn s c g && !(tileHeld s (tileKey g t)) && frameFor s g t

/-- A command that reads or replaces a whole group, run when no fold holds one of its tiles. -/
def runGroupUnit (s : State) (key : Nat) (ok : Cmd → Bool) (g : Cmd → Nat) (f : State → Cmd → State) :
    Host.Outcome State Fault Refusal :=
  runUnit s key (fun c => ok c && !(groupBusy s (g c))) (fun s c =>
    let m := if dOp c.desc = 9 then (s, false) else meetGroup s (g c) (some c)
    if m.2 then abortCmd m.1 (noteErr c 7 stFault)
    else f (if (wholeReads c.desc).contains (g c) then touchGroup m.1 (g c) else m.1) c)

/-! ### GCLEAR (R147, R148) -/

def gclearMode (d : List Byte) : Nat := bitsOf (dNum d 0x33 1) 0 2
def gclearGroup (d : List Byte) : Nat := bitsOf (dNum d 0x2F 1) 0 6

/-- The live home format of an advisor layer: FP32 or binary64 (R79, R81). -/
def advHome (s : State) (id : Nat) : Nat :=
  if (tget advLayerReset s.advisor id).live.homeLive = 0 then 0x0 else 0xA

/-- The home format an OPEN asks for: with ADV_USE the advisor's live choice (R81). -/
def openHome (s : State) (d : List Byte) : Nat := if dAdvUse d then advHome s (dAdvId d) else bitsOf (dNum d 0x34 1) 0 4

/-- The parameters a GCLEAR OPEN sets (R147). -/
def openedGroup (home : Nat) (d : List Byte) (x : Group) : Group :=
  let m := dNum d 0x33 1
  { x with
    step := dStep d, seed := 0, rows := dNum d 0x2C 3, cols := dNum d 0x30 3, homeAddr := dNum d 0x20 8
    homePitch := dNum d 0x28 4
    homeFmt := home, init := bitOf m 2, sat := bitOf m 3, rnd := bitsOf m 4 2, tid := dTid d }


/-- GCLEAR CLEAR; a group that another command has closed since the check has nothing to clear (R148, R152). -/
def execGclearClear (r : CmdRef) (s : State) : Host.Outcome State Fault Refusal :=
  runUnit s (refKey r) (fun c => isOp 0x07 c && gclearMode c.desc == 1) (fun s c =>
    let g := gclearGroup c.desc
    if (groupOf s g).state == .free then endCmd s c.key stNoGroup 0 0
    else endCmd (emptyGroup (setGroup s g { groupOf s g with step := dStep c.desc }) g false) c.key stOK 0 0)

/-- GCLEAR CLOSE: the group is FREE; its GEN has moved on (R150). -/
def execGclearClose (r : CmdRef) (s : State) : Host.Outcome State Fault Refusal :=
  runUnit s (refKey r) (fun c => isOp 0x07 c && gclearMode c.desc == 2) (fun s c =>
    let g := gclearGroup c.desc
    if (groupOf s g).state == .free then endCmd s c.key stNoGroup 0 0
    else endCmd (setGroup (dropPreloads (clearTiles s g) g) g { groupFree with gen := ((groupOf s g).gen + 1) % 256 }) c.key stOK 0 0)

/-! ### FOLD (R161, R303) -/

def foldGroup (d : List Byte) : Nat := bitsOf (dNum d 0x3D 1) 0 6

/-- The binary64 value of element (i, j) of the region (R161). -/
def foldSource (s : State) (d : List Byte) (i j : Nat) : BitVec 64 :=
  let sz := if bitsOf (dNum d 0x3C 1) 0 4 = 0 then 4 else 8
  let n := s.num (dNum d 0x20 8 + i * dNum d 0x28 8 + j * sz) sz
  if sz = 4 then fp32ToB64 n else b64Entry n

/-- The cells of tile `t` covered by the region and inside the group's shape (R303). -/
def foldRegion (s : State) (d : List Byte) (x : Group) (t : Nat) : List (Nat × BitVec 64) :=
  let r0 := 256 * dNum d 0x38 2
  let c0 := 256 * dNum d 0x3A 2
  ((tileCells x t).filter (fun p => r0 ≤ p.2.1 && p.2.1 < r0 + dNum d 0x30 4 && c0 ≤ p.2.2 && p.2.2 < c0 + dNum d 0x34 4)).map
    (fun p => (p.1, foldSource s d (p.2.1 - r0) (p.2.2 - c0)))

/-- Fold the covered tiles in ascending index; the second component joins their outcomes (R322). -/
def foldTiles (s : State) (c : Cmd) (g : Nat) (ts : List (Nat × List (Nat × BitVec 64))) : State × FoldOut :=
  ts.foldl (fun (a : State × FoldOut) t =>
    let r := foldCells a.1 c g t.1 a.2.adv t.2
    (r.1, ⟨a.2.flags ||| r.2.flags, max a.2.status r.2.status, r.2.adv⟩)) (s, ⟨0, 0, c.adv⟩)

/-- The tiles of a torn group whose command completed with no error: OPEN again (R152). -/
def mendGroup (s : State) (g st status : Nat) : State :=
  let x := groupOf s g
  if status = 0 && x.state == .torn && x.torn == st then setGroup s g { x with state := .open, torn := 0 } else s

/-- FOLD. -/
def execFold (r : CmdRef) (s : State) : Host.Outcome State Fault Refusal :=
  runGroupUnit s (refKey r) (fun c => isOp 0x06 c && foldTurn s c (foldGroup c.desc) &&
    (List.range (groupTiles (groupOf s (foldGroup c.desc)))).all (frameFor s (foldGroup c.desc))) (fun c => foldGroup c.desc) (fun s c =>
    let g := foldGroup c.desc
    let x := groupOf s g
    let ts := ((List.range (groupTiles x)).map (fun t => (t, foldRegion s c.desc x t))).filter (fun p => !p.2.isEmpty)
    let a := foldTiles s c g ts
    let s1 := modCmd a.1 c.key (fun c => { c with adv := a.2.adv })
    endCmd (mendGroup s1 g (dStamp c.desc) a.2.status) c.key a.2.status a.2.flags 0)

/-! ### Flush and group images (R165, R166) -/

def gsGroup (d : List Byte) : Nat := bitsOf (dNum d 0x2E 1) 0 6
def gsPlane (d : List Byte) : Bool := bitOf (dNum d 0x2F 1) 0
def gsHome (d : List Byte) : Bool := bitOf (dNum d 0x2F 1) 1
def gsTile (d : List Byte) : Nat := bitsOf (dNum d 0x2C 2) 0 14
def gsAddr (d : List Byte) : Nat := dNum d 0x20 8
def gsStamp (d : List Byte) : Nat := dNum d 0x28 4
def gsLimit (d : List Byte) : Nat := dNum d 0x30 8

/-- One entry as a flush writes it: its bytes and whether it counts in SAT_EVENTS (R165). -/
def flushEntry (x : Group) (idx : Nat) (v : BitVec 64) : List Byte × Bool :=
  if pinned x then
    let q := storeFloat ffFP32 (rndAt ((rndOf x.rnd).getD .rne) ⟨x.seed, 2, x.tid, x.step⟩ idx) x.sat
      (decodeFloat ffB64 v.toNat)
    (natLE q.1 4, q.2)
  else (natLE v.toNat 8, false)

/-- Flush one tile (R165). -/
def flushTile (s : State) (g t : Nat) : State :=
  let x := groupOf s g
  let d := tileOf s g t
  let skip := d.state == .home || (d.state == .untouched && x.init)
  if skip then s
  else
    let s := (tileCells x t).foldl (fun s p =>
      let e := flushEntry x (p.2.1 * x.cols + p.2.2) (readEntry s g t p.1)
      let s := s.store (homeEntry x p.2.1 p.2.2) e.1
      if e.2 then bump s scrSatEventsCount 1 else s) s
    if d.state == .resident then setTile s g t { d with dirty := false } else s

/-- FLUSH: a GSAVE with DEST = HOME (R165). -/
def execFlush (r : CmdRef) (s : State) : Host.Outcome State Fault Refusal :=
  runGroupUnit s (refKey r) (fun c => isOp 0x08 c && !(gsPlane c.desc) && gsHome c.desc) (fun c => gsGroup c.desc)
    (fun s c =>
      let g := gsGroup c.desc
      let x := groupOf s g
      if x.gen ≠ genOf c g then endCmd s c.key (resetStatus x) 0 0
      else endCmd (forN (groupTiles x) (fun t s => flushTile s g t) s) c.key stOK 0 0)

def gstateCode : GState → Nat
  | .free => 0 | .open => 1 | .torn => 2 | .broken => 3

/-- The tiles of a group that have a record in its image: RESIDENT and HOME (R166). -/
def imageTiles (s : State) (g : Nat) : List Nat :=
  (List.range (groupTiles (groupOf s g))).filter (fun t => (tileOf s g t).state != .untouched)

/-- The header of a group image (R166). -/
def imageHeader (g : Nat) (x : Group) (trec : Nat) : List Byte :=
  padTo 128 (natLE 0x47534346 4 ++ natLE 1 2 ++ natLE g 1 ++ natLE (gstateCode x.state) 1 ++ natLE x.step 4 ++
    natLE (if x.state == .torn then x.torn else 0) 4 ++
    natLE (flagIf x.poison 1 + flagIf x.longsum 2 + flagIf x.surrogate 4) 4 ++ natLE x.rows 4 ++ natLE x.cols 4 ++
    natLE x.homeFmt 1 ++ natLE (flagIf x.init 1 + placed x.rnd 1 2 + flagIf x.sat 8) 1 ++ natLE 0 2 ++
    natLE x.homeAddr 8 ++ natLE x.homePitch 4 ++ natLE x.tid 4 ++ natLE x.seed 8 ++ natLE trec 4)

/-- One tile record (R166). -/
def tileRecord (s : State) (g t : Nat) : List Byte :=
  let x := groupOf s g
  let d := tileOf s g t
  let inside := fun k => 256 * (t / groupTC x) + k / 256 < x.rows && 256 * (t % groupTC x) + k % 256 < x.cols
  padTo 32 (natLE t 4 ++ natLE d.stamp 4 ++ natLE (flagIf d.spoiled 1) 1) ++
    (List.range 65536).flatMap (fun k => natLE (if inside k then (readEntry s g t k).toNat else 0) 8)

/-- The length of a group image of `n` tile records. -/
def imageLen (n : Nat) : Nat := 128 + n * (32 + 524288) + 8

/-- A whole group image with its digest (R166). -/
def groupImage (s : State) (g : Nat) : List Byte :=
  let ts := imageTiles s g
  let b := imageHeader g (groupOf s g) ts.length ++ ts.flatMap (tileRecord s g)
  b ++ natLE (crc64 b) 8

/-- GSAVE of a group to ADDR (R166, R303). -/
def execGsaveGroup (r : CmdRef) (s : State) : Host.Outcome State Fault Refusal :=
  runGroupUnit s (refKey r) (fun c => isOp 0x08 c && !(gsPlane c.desc) && !(gsHome c.desc)) (fun c => gsGroup c.desc)
    (fun s c =>
      let g := gsGroup c.desc
      let x := groupOf s g
      if x.gen ≠ genOf c g then endCmd s c.key (resetStatus x) 0 0
      else if gsLimit c.desc < imageLen (imageTiles s g).length then endCmd s c.key stNoSpace 0 0
      else endCmd (s.store (gsAddr c.desc) (groupImage s g)) c.key stOK 0 0)

/-! ### GRESTORE of a group (R167, R169) -/

/-- The group an image header describes, with the GEN it will have. -/
def imageGroup (b : List Byte) (gen : Nat) : Group :=
  let o := fieldAt b 0x1D 1
  let f := fieldAt b 0x10 4
  let st := fieldAt b 0x07 1
  { groupFree with
    state := if st = 2 then .torn else if st = 3 then .broken else .open
    step := fieldAt b 0x08 4, torn := fieldAt b 0x0C 4, poison := bitOf f 0, longsum := bitOf f 1, surrogate := bitOf f 2
    rows := fieldAt b 0x14 4, cols := fieldAt b 0x18 4, homeFmt := fieldAt b 0x1C 1, init := bitOf o 0, rnd := bitsOf o 1 2
    sat := bitOf o 3, homeAddr := fieldAt b 0x20 8, homePitch := fieldAt b 0x28 4, tid := fieldAt b 0x2C 4
    seed := fieldAt b 0x30 8, gen := (gen + 1) % 256 }

/-- The checks of R169 on the header of a group image for group `g`. A HOME_FMT or RND encoding that is reserved, and a TORN_STAMP without STATE 2,
count as fields the rule refuses (DESIGN CHOICE, log 73). -/
def imageHeaderOk (b : List Byte) (g : Nat) : Bool :=
  let x := imageGroup b 0
  let st := fieldAt b 0x07 1
  fieldAt b 0x00 4 == 0x47534346 && fieldAt b 0x04 2 == 1 && fieldAt b 0x06 1 == g && 1 ≤ st && st ≤ 3 &&
    fieldAt b 0x10 4 < 8 && fieldAt b 0x1D 1 < 16 && fieldAt b 0x1E 2 == 0 && leNat ((b.drop 0x3C).take 68) == 0 &&
    1 ≤ x.rows && x.rows < 2 ^ 24 && 1 ≤ x.cols && x.cols < 2 ^ 24 && groupTR x * groupTC x ≤ 16384 &&
    (x.homeFmt == 0 || x.homeFmt == 0xA) && x.rnd ≠ 3 && (st == 2 || fieldAt b 0x0C 4 == 0) &&
    fieldAt b 0x38 4 ≤ groupTR x * groupTC x

/-- The checks of R169 on the tile records: indices rise and lie in the group, reserved bytes are 0. -/
def imageTilesOk (x : Group) (recs : List (List Byte)) : Bool :=
  (recs.foldl (fun (a : Bool × Int) h =>
    let t := fieldAt h 0 4
    (a.1 && a.2 < (t : Int) && t < groupTR x * groupTC x && fieldAt h 8 1 < 2 && leNat ((h.drop 9).take 23) == 0, (t : Int)))
    (true, -1)).1

/-- Whether OPEN or a restore of group `g` in shape `x` finds room, as DIR_FULL or SCREED_FULL (R148, R169): the
group's own reservations count as free. -/
def roomStatus (s : State) (g : Nat) (x : Group) : Nat :=
  let s' := { s with groups := tdel s.groups g }
  let n := groupTR x * groupTC x
  if 32768 < dirUsed s' + n then stDirFull
  else if pinned x && liveFrames s - 32 < pinnedFrames s' + n then stScreedFull
  else stOK

/-- Whether the frames reserved, resident and held exceed the live ones (R151). -/
def framesOver (s : State) : Bool := liveFrames s < pinnedFrames s + residentCached s + heldFrames s

/-- Cached tiles leave their frames for reservations just made (R151, R164). -/
def makeRoom (s : State) : State :=
  forN 512 (fun _ s => if framesOver s then (match victim s with
    | some k => evictTile s k
    | none => s) else s) s

/-- The group opened, with its frames. -/
def openRun (s : State) (c : Cmd) : State :=
  let g := gclearGroup c.desc
  makeRoom (emptyGroup (setGroup s g (openedGroup (tget 0 c.aux 0) c.desc (groupOf s g))) g false)

/-- GCLEAR OPEN: the room is taken now, and an OPEN whose room another command took since the check is refused (R148); tiles of cached groups
make way for its pinned frames, and it waits while those that would have to are held (R151). The home format is the one latched at the start
(R81). -/
def execGclearOpen (r : CmdRef) (s : State) : Host.Outcome State Fault Refusal :=
  let room := fun (c : Cmd) =>
    roomStatus s (gclearGroup c.desc) { openedGroup (tget 0 c.aux 0) c.desc (groupOf s (gclearGroup c.desc)) with state := .open }
  runUnit s (refKey r) (fun c => isOp 0x07 c && gclearMode c.desc == 0 && (room c != stOK || !(framesOver (openRun s c)))) (fun s c =>
    if room c = stOK then endCmd (openRun s c) c.key stOK 0 0 else endCmd s c.key (room c) 0 0)

/-- Put one restored tile into a frame (R167). -/
def restoreTile (s : State) (g : Nat) (h : List Byte) (entries : List (Nat × BitVec 64)) : State :=
  let t := fieldAt h 0 4
  let s := if pinned (groupOf s g) || 0 < freeFrames s then s
    else match victim s with
      | some k => evictTile s k
      | none => s
  let f := lowestFrame s
  touchTile (setTile (newFrame s f entries) g t
    ⟨.resident, f, true, fieldAt h 4 4, bitOf (fieldAt h 8 1) 0, 0⟩) g t

/-- Check a group image read through `rdB` (offset, length) and make the group as recorded, or give the status. -/
def restoreGroup (s : State) (g : Nat) (rdB : Nat → Nat → List Byte) : State × Nat :=
  let h := rdB 0 128
  if !(imageHeaderOk h g) then (s, stBadImage)
  else
    let n := fieldAt h 0x38 4
    let x := imageGroup h (groupOf s g).gen
    let recs := (List.range n).map (fun i => rdB (128 + i * 524320) 32)
    let len := imageLen n
    if !(imageTilesOk x recs) || leNat (rdB (len - 8) 8) ≠ crc64 (rdB 0 (len - 8)) then (s, stBadImage)
    else
      let room := roomStatus s g x
      if room ≠ stOK then (s, room)
      else
        let s := makeRoom (setGroup (clearTiles s g) g x)
        (forN n (fun i s =>
          let o := 128 + i * 524320
          restoreTile s g (rdB o 32)
            ((List.range 65536).map (fun k => (k, b64Entry (leNat (rdB (o + 32 + 8 * k) 8)))))) s, stOK)

/-- The group made as its image says, and the status. -/
def restoreRead (s : State) (c : Cmd) : State × Nat :=
  restoreGroup s (gsGroup c.desc) (fun o n => s.bytes (gsAddr c.desc + o) n)

/-- Whether the frames an image needs can be had: an image that is refused needs none. -/
def restoreFits (s : State) (c : Cmd) : Bool :=
  let a := restoreRead s c
  a.2 != stOK || !(framesOver a.1)

/-- GRESTORE of a group (R167); it waits while the frames it needs are held (R151). -/
def execGrestoreGroup (r : CmdRef) (s : State) : Host.Outcome State Fault Refusal :=
  runGroupUnit s (refKey r) (fun c => isOp 0x09 c && !(gsPlane c.desc) && restoreFits (readView s c.key 7) c)
    (fun c => gsGroup c.desc) (fun s c =>
      let a := restoreRead s c
      endCmd a.1 c.key a.2 0 0)

/-! ### Plane records, diverts and preloads (R167, R168) -/

/-- The bytes of a plane record in AF48 (R168). -/
def planeRecord (rows count stamp tile resume : Nat) (longsum : Bool) (e : Nat → BitVec 48) : List Byte :=
  let b := padTo 64 (natLE 0x504C4146 4 ++ natLE 1 2 ++ natLE 0x9 1 ++ natLE (flagIf longsum 1) 1 ++ natLE rows 2 ++
      zeros 6 ++ natLE count 8 ++ natLE stamp 4 ++ natLE tile 4 ++ natLE resume 8) ++
    (List.range (rows * 256)).flatMap (fun k => natLE (e k).toNat 6)
  b ++ natLE (crc64 b) 8

/-- DIVERT: GSAVE with OBJ = PLANE binds the tile (R167); at most 16 are held. -/
def execDivert (r : CmdRef) (s : State) : Host.Outcome State Fault Refusal :=
  runUnit s (refKey r) (fun c => isOp 0x08 c && gsPlane c.desc && s.diverts.length < 16) (fun s c =>
    endCmd { s with diverts := s.diverts ++ [⟨c.q, gsStamp c.desc, gsGroup c.desc, gsTile c.desc, c.seq, gsAddr c.desc⟩] }
      c.key stOK 0 0)

/-- The checks of R169 on a plane record to preload for a group with `tiles` tiles; any tile a group can have when it is FREE (DEDUCED, log 73). -/
def planeRecordOk (tiles : Nat) (h : List Byte) : Bool :=
  let f := fieldAt h 6 1
  let rows := fieldAt h 8 2
  fieldAt h 0 4 == 0x504C4146 && fieldAt h 4 2 == 1 && (f == 0x9 || f == 0x0) && fieldAt h 7 1 < 2 && 1 ≤ rows &&
    rows ≤ 256 && leNat ((h.drop 0x0A).take 6) == 0 && fieldAt h 0x10 8 < 2 ^ 40 && fieldAt h 0x1C 4 < tiles && fieldAt h 0x20 8 < 2 ^ 48 &&
    leNat ((h.drop 0x28).take 24) == 0

/-- The tile indices a group may have: all of 16,384 when it is FREE (R147). -/
def tileRange (x : Group) : Nat := if x.state == .free then 16384 else groupTiles x

/-- The AF48 entries of a plane record's body (R41, R168). -/
def planeEntries (fmt rows : Nat) (body : Nat → Nat → List Byte) : List (Nat × BitVec 48) :=
  (List.range (rows * 256)).map (fun k =>
    (k, if fmt = 0x9 then af48Entry (leNat (body (6 * k) 6)) else fp32ToAF48 (leNat (body (4 * k) 4))))

/-- PRELOAD: GRESTORE with OBJ = PLANE (R167); it waits for a free unpinned frame and one of 16 places. -/
def execPreload (r : CmdRef) (s : State) : Host.Outcome State Fault Refusal :=
  runUnit s (refKey r) (fun c => isOp 0x09 c && gsPlane c.desc && s.preloads.length < 16 && 0 < freeFrames s) (fun s c =>
    let a := gsAddr c.desc
    let h := s.bytes a 64
    let rows := fieldAt h 8 2
    let sz := if fieldAt h 6 1 = 0x9 then 6 else 4
    let len := 64 + rows * 256 * sz
    if !(planeRecordOk (tileRange (groupOf s (gsGroup c.desc))) h) || s.num (a + len) 8 ≠ crc64 (s.bytes a len) then endCmd s c.key stBadImage 0 0
    else
      let e := planeEntries (fieldAt h 6 1) rows (fun o n => s.bytes (a + 64 + o) n)
      endCmd { s with preloads := s.preloads ++
        [⟨c.q, gsStamp c.desc, gsGroup c.desc, gsTile c.desc, c.seq, rows, e⟩] } c.key stOK 0 0)

/-! ### Fetch and eviction rows (R163, R164) -/

/-- Whether a fold, a RECV, a FOLD or a SCATTER that is under way needs a tile (R163). -/
def tileWanted (s : State) (g t : Nat) : Bool :=
  foldWaits s (tileKey g t) ||
    s.rxOpen.any (fun x => (findCmd s x.key).any (fun c => (writtenGroups c.desc).contains g) &&
      x.sources.any (fun y => y.pkts.any (fun p => x.waits.contains (y.rank, p.1) && hTile p.2 == t))) ||
    s.cmds.any (fun c => (c.phase == .started || c.phase == .begun) && (writtenGroups c.desc).contains g &&
      (dOp c.desc == 0x19 || (dOp c.desc == 0x06 && !(foldRegion s c.desc (groupOf s g) t).isEmpty)))

/-- TILE_FETCH (R163): a non-resident tile that something needs takes a free frame. -/
def execTileFetch (g : BitVec 6) (t : BitVec 14) (s : State) : Host.Outcome State Fault Refusal :=
  let x := groupOf s g.toNat
  if unitsRun s && t.toNat < groupTiles x && (tileOf s g.toNat t.toNat).state != .resident && tileWanted s g.toNat t.toNat
      && (pinned x || 0 < freeFrames s) then
    .next (settle s (fetchTile s g.toNat t.toNat))
  else .next s

/-- Whether a tile of a cached group or a preload wants a frame (R164, R167). -/
def frameWanted (s : State) : Bool :=
  s.groups.any (fun p => !(pinned p.2) && (List.range (groupTiles p.2)).any (fun t =>
    (tileOf s p.1 t).state != .resident && tileWanted s p.1 t)) ||
    s.cmds.any (fun c => c.phase == .started && isOp 0x09 c && gsPlane c.desc)

/-- TILE_EVICT (R164): a frame is wanted and none is free, and the victim goes to its home. -/
def execTileEvict (s : State) : Host.Outcome State Fault Refusal :=
  if unitsRun s && freeFrames s == 0 && frameWanted s then
    match victim s with
    | some k => .next (settle s (evictTile s k))
    | none => .next s
  else .next s

end Sys2Proof.Machine
end

