-- ==== Sys2Proof/Machine/Ledger.lean ====
section
/-! DEFINITION. The sample ledger (09_scatter_and_routed_rows R222 to R231): tags, views, the row decision, the
counting of screened rows, quarantine marks, and the LEDGER commands. -/

namespace Sys2Proof.Machine

def slotOf (s : State) (k : Nat) : LSlot := tget lslotReset s.ledger k
def setSlot (s : State) (k : Nat) (x : LSlot) : State := { s with ledger := tput lslotReset s.ledger k x }

/-- The anonymous slot (R222). -/
def anonSlot : Nat := 0xFFF

/-- The tag word of dense row `r` (R223); TAGS = 0 gives the anonymous slot. -/
def tagOf (s : State) (d : List Byte) (r : Nat) : Nat :=
  if dTags d = 0 then anonSlot else s.num (dTags d + 4 * r) 4

def tagSlot (t : Nat) : Nat := bitsOf t 0 12
def tagGen (t : Nat) : Nat := bitsOf t 12 8
def tagReserved (t : Nat) : Bool := bitsOf t 20 12 != 0

/-- What the ledger decides for a row (R225). -/
inductive Decision where
  | badTag
  | enter
  | stale
  | cancelled
  | quar
  deriving DecidableEq, Repr

/-- The ledger decision from the tag and the view (R225). -/
def ledgerDecide (view : List (Nat × LSlot)) (t : Nat) : Decision :=
  let x := tget lslotReset view (tagSlot t)
  if tagReserved t then .badTag
  else if tagSlot t = anonSlot then .enter
  else if tagGen t ≠ x.gen then .stale
  else if x.state = 1 then .cancelled
  else if x.state = 2 then .quar
  else .enter

def sat32 (n : Nat) : Nat := satAdd 32 n 1

/-- The effect of a decision that husks the row (R225). -/
def countHusk (s : State) (t : Nat) (d : Decision) : State :=
  let k := tagSlot t
  let x := slotOf s k
  match d with
  | .badTag => setEvt (bump s ldgBadTagsCount 1) evBadTag
  | .stale => setSlot s k { x with stale := sat32 x.stale }
  | .cancelled => setSlot s k { x with cancelled := sat32 x.cancelled }
  | .quar => setSlot s k { x with quar := sat32 x.quar }
  | .enter => s

/-- Count a row that took part (R226): `marked` tells whether the screen marked it, `policy` the latched FP policy. -/
def countRow (s : State) (t : Nat) (marked : Bool) (policy : Nat) : State :=
  let k := tagSlot t
  let x := slotOf s k
  let y := { x with rows := sat32 x.rows }
  let y := if marked && policy = 0 then { y with marked := sat32 y.marked, nfSeen := true } else y
  let y := if marked && policy = 3 then { y with mended := sat32 y.mended, mendSeen := true } else y
  let s := setSlot s k y
  if k = anonSlot then bump s ldgAnonRowsCount 1 else s

/-- What the screen makes of one row: whether it takes part, and whether it traps. -/
inductive RowFate where
  | part
  | husked
  | trap
  deriving DecidableEq, Repr

/-- Judge one row: ledger decision, then the screen's mark under the policy (R225, R226). The third component is a
quarantine mark (R228). -/
def judgeRow (s : State) (view : List (Nat × LSlot)) (policy t : Nat) (marked : Bool) : State × RowFate × List QMark :=
  match ledgerDecide view t with
  | .enter =>
    if marked && policy = 1 then
      let x := slotOf s (tagSlot t)
      (setSlot s (tagSlot t) { x with quar := sat32 x.quar }, .husked, [(tagSlot t, tagGen t)])
    else if marked && policy = 2 then (s, .trap, [])
    else (countRow s t marked policy, .part, [])
  | d => (countHusk s t d, .husked, [])

/-- One quarantine mark taking effect (R228). -/
def applyMark (s : State) (m : QMark) : State :=
  if m.1 = anonSlot then s
  else
    let x := slotOf s m.1
    if x.gen = m.2 then
      setEvt (setSlot s m.1 { x with state := 2 }) evQuar
    else bump s ldgLateMarksCount 1

/-- The marks of a command that has screened its last row. -/
def applyMarks (s : State) (ms : List QMark) : State := ms.foldl applyMark s

/-! ### Views (R227) -/

/-- Whether a command has screened its last row. -/
def allScreened (c : Cmd) : Bool :=
  match cmdRows c.desc with
  | some m => m ≤ c.screened || c.phase == .ended || c.phase == .recorded
  | none => true

/-- Whether every earlier quarantining command of the queue has screened its last row (R227). -/
def viewReady (s : State) (c : Cmd) : Bool :=
  s.cmds.all (fun e => !(e.q == c.q && serialLt e.seq c.seq && e.lat.policy == 1 && !(allScreened e)))

/-- The view of a command: the one it took, or the ledger now; a command without tags needs none. -/
def viewOf (s : State) (c : Cmd) : List (Nat × LSlot) := (c.view).getD s.ledger

/-- Whether the command may screen rows: its view is taken or can be taken now. -/
def canScreen (s : State) (c : Cmd) : Bool := c.view.isSome || !(takesView c.desc) || viewReady s c

/-- LEDGER_VIEW: the copy of GEN and STATE of every slot (R227). -/
def execLedgerView (r : CmdRef) (s : State) : Host.Outcome State Fault Refusal :=
  match findCmd s (refKey r) with
  | some c =>
    if runnable s c && takesView c.desc && c.view.isNone && viewReady s c then
      let m := meetDamage s (fun d => d.cls == 7) (some c)
      .next (settle s (modCmd m.1 c.key (fun c =>
        { (if lostFails m.1 c.desc then noteErr c 7 stFault else c) with view := some s.ledger })))
    else .next s
  | none => .next s

/-! ### LEDGER (R229, R230) -/

def ledgerOp (d : List Byte) : Nat := bitsOf (dNum d 0x28 1) 0 4
def ledgerList (d : List Byte) : Bool := bitOf (dNum d 0x28 1) 4
def ledgerZero (d : List Byte) : Bool := bitOf (dNum d 0x28 1) 5
def ledgerFirst (d : List Byte) : Nat := bitsOf (dNum d 0x2A 2) 0 12
def ledgerCount (d : List Byte) : Nat := bitsOf (dNum d 0x2C 2) 0 13
def ledgerAddr (d : List Byte) : Nat := dNum d 0x20 8

/-- The slot a selection step names, unless it is skipped: a list word with a stale generation or reserved bits, or
slot 0xFFF for an operation that changes GEN or STATE (R230). -/
def ledgerPick (s : State) (d : List Byte) (i : Nat) : Option Nat :=
  if ledgerList d then
    let t := s.num (ledgerAddr d + 4 * i) 4
    if tagReserved t || tagGen t ≠ (slotOf s (tagSlot t)).gen then none else some (tagSlot t)
  else some (ledgerFirst d + i)

/-- Act on the selected slots in ascending order; the second component counts the skipped ones. `guard` keeps
slot 0xFFF out (R230). -/
def ledgerAct (guard : Bool) (f : LSlot → LSlot) (s : State) (d : List Byte) : State × Nat :=
  forN (ledgerCount d) (fun i a =>
    match ledgerPick a.1 d i with
    | some k => if guard && k = anonSlot then (a.1, a.2 + 1) else (setSlot a.1 k (f (slotOf a.1 k)), a.2)
    | none => (a.1, a.2 + 1)) (s, 0)

/-- A LEDGER command that changes slots: RESULT is the number skipped (R321). -/
def runLedger (op : Nat) (guard : Bool) (f : List Byte → LSlot → LSlot) (r : CmdRef) (s : State) :
    Host.Outcome State Fault Refusal :=
  runUnit s (refKey r) (fun c => isOp 0x32 c && ledgerOp c.desc == op) (fun s c =>
    let a := ledgerAct guard (f c.desc) s c.desc
    endCmd a.1 c.key stOK 0 a.2)

/-- BUMP of one slot (R229). -/
def ledgerBump (zero : Bool) (x : LSlot) : LSlot :=
  if zero then { lslotReset with gen := (x.gen + 1) % 256 } else { x with gen := (x.gen + 1) % 256, state := 0 }

/-- BUMP (R229). -/
def execBump (r : CmdRef) (s : State) : Host.Outcome State Fault Refusal :=
  runLedger 0 true (fun d => ledgerBump (ledgerZero d)) r s

/-- CANCEL (R229). -/
def execCancel (r : CmdRef) (s : State) : Host.Outcome State Fault Refusal :=
  runLedger 1 true (fun _ x => { x with state := 1 }) r s

/-- QUARANTINE (R229). -/
def execQuarantine (r : CmdRef) (s : State) : Host.Outcome State Fault Refusal :=
  runLedger 2 true (fun _ x => { x with state := 2 }) r s

/-- RELEASE (R229). -/
def execRelease (r : CmdRef) (s : State) : Host.Outcome State Fault Refusal :=
  runLedger 3 true (fun _ x => { x with state := 0 }) r s

/-- CLEAR (R229): counters and sticky bits to 0. -/
def execLedgerClear (r : CmdRef) (s : State) : Host.Outcome State Fault Refusal :=
  runLedger 4 false (fun _ x => { lslotReset with gen := x.gen, state := x.state }) r s

/-- The dumped record of a slot (R230). -/
def slotBytes (x : LSlot) : List Byte :=
  natLE (placed x.gen 0 8 + placed x.state 8 2 + flagIf x.nfSeen 0x400 + flagIf x.mendSeen 0x800) 8 ++
    natLE x.rows 4 ++ natLE x.stale 4 ++ natLE x.cancelled 4 ++ natLE x.quar 4 ++ natLE x.marked 4 ++ natLE x.mended 4

/-- The slot of a dumped record (R230). -/
def slotParse (b : List Byte) : LSlot :=
  let w := fieldAt b 0 8
  ⟨bitsOf w 0 8, bitsOf w 8 2, bitOf w 10, bitOf w 11, fieldAt b 8 4, fieldAt b 12 4, fieldAt b 16 4, fieldAt b 20 4,
    fieldAt b 24 4, fieldAt b 28 4⟩

/-- Whether a dumped record may be loaded: STATE is not 3 and the reserved bits are 0 (R230). -/
def slotBytesOk (b : List Byte) : Bool := bitsOf (fieldAt b 0 8) 8 2 != 3 && bitsOf (fieldAt b 0 8) 12 52 == 0

/-- The record bytes of `n` slots from slot `first`. -/
def ledgerDumpBytes (s : State) (first n : Nat) : List Byte :=
  (List.range n).flatMap (fun i => slotBytes (slotOf s (first + i)))

/-- LEDGER DUMP (R230). -/
def execLedgerDump (r : CmdRef) (s : State) : Host.Outcome State Fault Refusal :=
  runUnit s (refKey r) (fun c => isOp 0x32 c && ledgerOp c.desc == 5) (fun s c =>
    endCmd (s.store (ledgerAddr c.desc) (ledgerDumpBytes s (ledgerFirst c.desc) (ledgerCount c.desc))) c.key stOK 0 0)

/-- Load `n` slot records from slot `first` on; slot 0xFFF keeps GEN 0 and LIVE (R230). -/
def ledgerLoadBytes (s : State) (first n : Nat) (b : Nat → List Byte) : State :=
  forN n (fun i s =>
    let k := first + i
    let x := slotParse (b i)
    setSlot s k (if k = anonSlot then { x with gen := 0, state := 0 } else x)) s

/-- LEDGER LOAD (R230): one bad record refuses the whole command. -/
def execLedgerLoad (r : CmdRef) (s : State) : Host.Outcome State Fault Refusal :=
  runUnit s (refKey r) (fun c => isOp 0x32 c && ledgerOp c.desc == 6) (fun s c =>
    let b := fun i => s.bytes (ledgerAddr c.desc + 32 * i) 32
    if (List.range (ledgerCount c.desc)).all (fun i => slotBytesOk (b i)) then
      let s := ledgerLoadBytes s (ledgerFirst c.desc) (ledgerCount c.desc) b
      endCmd (foundRecords s (fun p => p.1 == 0 && ledgerFirst c.desc ≤ p.2 && p.2 < ledgerFirst c.desc + ledgerCount c.desc)) c.key stOK 0 0
    else endCmd s c.key stBadImage 0 0)

end Sys2Proof.Machine
end

