-- ==== Sys2Proof/Machine/Sparse.lean ====
section
/-! DEFINITION. Stationary operands (04 R90, 08 R198 to R204, R208 to R210): layout records and tile tables, the cells a
K-block puts on the path of an output, COMPRESS (R205 to R207), and hand-off records (R213, R214). -/

namespace Sys2Proof.Machine

/-! ### Tile tables (R199 to R201) -/

/-- The header of a tile table. -/
structure Tab where
  addr  : Nat
  code  : Nat
  mx    : Bool
  texp  : Int
  kext  : Nat
  next  : Nat
  kb    : Nat
  ob    : Nat
  bytes : Nat
  raw   : List Byte
  deriving DecidableEq, Repr

/-- The table at an address. -/
def tabAt (s : State) (a : Nat) : Tab :=
  let b := s.bytes a 64
  let f := fieldAt b 6 1
  ⟨a, bitsOf f 0 4, bitOf f 4, signedOf (fieldAt b 7 1) 8, fieldAt b 8 4, fieldAt b 0xC 4, fieldAt b 0x10 2,
    fieldAt b 0x12 2, fieldAt b 0x38 8, b⟩

/-- The checks of R203 on the header alone. -/
def tabHeaderOk (t : Tab) : Bool :=
  fieldAt t.raw 0 4 == 0x54544246 && fieldAt t.raw 4 2 == 1 && fieldAt t.raw 0x14 1 == 1 &&
    bitsOf (fieldAt t.raw 6 1) 5 3 == 0 && leNat ((t.raw.drop 0x15).take 35) == 0 &&
    t.kb == ceilDiv t.kext 256 && t.ob == ceilDiv t.next 256

/-- The table entry of K-block `kb` and output tile `ob`: address and FORM (R199). -/
def tabEntry (s : State) (t : Tab) (kb ob : Nat) : Nat × Nat :=
  let e := s.num (t.addr + 64 + 8 * (kb * t.ob + ob)) 8
  (e / 64 * 64, bitsOf e 0 2)

/-- The extents of the tile at (kb, ob): K-lines and outputs. -/
def tileKLines (t : Tab) (kb : Nat) : Nat := min 256 (t.kext - 256 * kb)
def tileOLines (t : Tab) (ob : Nat) : Nat := min 256 (t.next - 256 * ob)

/-- Bytes of one line of `n` elements, a whole number of packing groups (R201). -/
def lineBytes (code n : Nat) : Nat :=
  let w := codeBits code
  ceilDiv (w * roundUp n (groupElems w)) 8

/-- Scale bytes of one line (R201). -/
def scaleBytes (mx : Bool) (n : Nat) : Nat := if mx then ceilDiv n 32 else 0

/-- Payload bytes of a tile form with `live` live K-lines (R201); FORM 0 dense, 1 2:4, 2 bitmap. -/
def payloadBytes (code : Nat) (mx : Bool) (form kl ol live : Nat) : Nat :=
  let lb := lineBytes code ol
  let sb := scaleBytes mx ol
  let g4 := ceilDiv kl 4
  match form with
  | 0 => kl * (lb + sb)
  | 1 => 2 * g4 * lb + g4 * ceilDiv ol 2 + kl * sb
  | _ => live * (lb + sb)

/-- ROWMAP of a tile and its popcount. -/
def rowMap (s : State) (a : Nat) : Nat := s.num (a + 0x20) 32
def popBits (n w : Nat) : Nat := ((List.range w).filter (bitOf n)).length

/-- The checks of R203 at tile load. -/
def tileOk (s : State) (t : Tab) (kb ob : Nat) : Bool :=
  let e := tabEntry s t kb ob
  let h := s.bytes e.1 64
  let kl := tileKLines t kb
  let ol := tileOLines t ob
  let live := fieldAt h 0xC 2
  e.2 ≠ 3 && fieldAt h 0 4 == 0x4B544C46 && fieldAt h 4 1 == e.2 && fieldAt h 5 1 == fieldAt t.raw 6 1 &&
    fieldAt h 6 1 == fieldAt t.raw 7 1 && fieldAt h 8 2 == kl && fieldAt h 0xA 2 == ol && live == popBits (rowMap s e.1) 256 &&
    fieldAt h 0x10 4 == payloadBytes t.code t.mx e.2 kl ol live

/-! ### Stationary elements -/

/-- How a stationary element is mended and formatted. -/
structure WFmt where
  fmt  : ElemFmt
  mend : Bool
  deriving DecidableEq, Repr

/-- An element with its scale as the command uses it: mended under MEND (R67, R68). -/
def statVal (f : WFmt) (scale raw : Nat) : Val :=
  let v := elemVal f.fmt scale raw
  if f.mend then mendVal f.fmt scale v else v

/-- The raw element of column `c` of a payload line at byte address `a`. -/
def lineElem (s : State) (code a c : Nat) : Nat :=
  let w := codeBits code
  bitsOf (s.num (a + w * c / 8) (ceilDiv (w * c % 8 + w) 8)) (w * c % 8) w

/-- A cell of the path of an output: the (K index, value) pairs it multiplies; more than one only where metadata names
a position twice in an expanded FP32 tile (R204, R209). -/
abbrev Cell := List (Nat × Val)

/-- A stored cell: the (K index, scale, raw element, select code) it multiplies with; as for `Cell`. -/
abbrev RawCell := List (Nat × Nat × Nat × Nat)

/-- The stored cells of K-block `kb` for output `o` of a tile table, in path order (R202, R208 to R210). -/
def tableRaw (s : State) (t : Tab) (kb o : Nat) : List RawCell :=
  let e := tabEntry s t kb (o / 256)
  let kl := tileKLines t kb
  let ol := tileOLines t (o / 256)
  let c := o % 256
  let lb := lineBytes t.code ol
  let sb := scaleBytes t.mx ol
  let p := e.1 + 0x40
  let scaleAt := fun base line => if t.mx then s.num (base + line * sb + c / 32) 1 else 0
  match e.2 with
  | 0 => (List.range kl).map (fun q => [(256 * kb + q, scaleAt (p + kl * lb) q, lineElem s t.code (p + q * lb) c, 0)])
  | 1 =>
    let g4 := ceilDiv kl 4
    let meta0 := p + 2 * g4 * lb
    let sc0 := meta0 + g4 * ceilDiv ol 2
    let cells := (List.range (2 * g4)).map (fun l =>
      let nib := bitsOf (s.num (meta0 + l / 2 * ceilDiv ol 2 + c / 2) 1) (4 * (c % 2)) 4
      let sel := if l % 2 = 0 then bitsOf nib 0 2 else bitsOf nib 2 2
      let q := 4 * (l / 2) + sel
      if q < kl then [(256 * kb + q, scaleAt sc0 q, lineElem s t.code (p + l * lb) c, sel)] else ([] : RawCell))
    if fmtOf t.code = some .fp32 then
      (List.range kl).map (fun q =>
        let named := (cells.flatten).filter (fun x => x.1 == 256 * kb + q)
        if named.isEmpty then [(256 * kb + q, 0, 0, 0)] else named)
    else cells
  | _ =>
    let m := rowMap s e.1
    let lines := (List.range kl).filter (bitOf m)
    let live := popBits m 256
    (lines.zip (List.range lines.length)).map (fun x =>
      [(256 * kb + x.1, scaleAt (p + live * lb) x.2, lineElem s t.code (p + x.2 * lb) c, 0)])

/-- The (K index, value) pairs of a stored cell. -/
def cellOf (f : WFmt) (r : RawCell) : Cell := r.map (fun x => (x.1, statVal f x.2.1 x.2.2.1))

/-! ### The stationary operand of a command -/

def pSform (d : List Byte) : Bool := bitOf (dNum d 0x67 1) 4
def pW (d : List Byte) : Nat := dNum d 0x28 8
def pKExt (d : List Byte) : Nat := dNum d 0x58 3
def pNExt (d : List Byte) : Nat := dNum d 0x54 3

/-- Format code, MX and TEXP of the stationary operand. -/
def statFmt (s : State) (c : Cmd) : ElemFmt :=
  if pSform c.desc then
    let t := tabAt s (pW c.desc)
    ⟨(fmtOf t.code).getD .fp32, t.mx, t.texp⟩
  else layoutFmt (layoutAt s (pW c.desc))

/-- Element (K index, output) of a stationary layout record: a PLAIN's B has K as its rows, a W has its outputs (R90). -/
def denseStat (s : State) (l : Layout) (plain : Bool) (q o : Nat) : Nat × Nat :=
  if plain then (loadScale s l q o, loadRaw s l q o) else (loadScale s l o q, loadRaw s l o q)

/-- The stored cells of K-block `kb` for output `o` (R90, R91, R202). -/
def statRaw (s : State) (c : Cmd) (kb o : Nat) : List RawCell :=
  if pSform c.desc then tableRaw s (tabAt s (pW c.desc)) kb o
  else
    let l := layoutAt s (pW c.desc)
    (List.range (min 256 (pKExt c.desc - 256 * kb))).map (fun q =>
      let e := denseStat s l (dOp c.desc == 2) (256 * kb + q) o
      [(256 * kb + q, e.1, e.2, 0)])

/-- The cells of K-block `kb` for output `o`. -/
def statCells (s : State) (c : Cmd) (kb o : Nat) : List Cell :=
  (statRaw s c kb o).map (cellOf ⟨statFmt s c, c.lat.policy == 3⟩)

/-- The values of the stationary tile (kb, i) as stored, before mending: for the screen (R188). -/
def statTileVals (s : State) (c : Cmd) (kb i : Nat) : List Val :=
  let c0 := { c with lat := { c.lat with policy := 0 } }
  (List.range (min 256 (pNExt c.desc - 256 * i))).flatMap (fun o =>
    (statCells s c0 kb (256 * i + o)).flatten.map (·.2))

/-- Non-finite elements of a stationary tile. -/
def statTileBad (s : State) (c : Cmd) (kb i : Nat) : Nat := ((statTileVals s c kb i).filter Val.nonFinite).length

/-- Whether the tile passes its checks at load; a layout record has none (R203). -/
def statTileOk (s : State) (c : Cmd) (kb i : Nat) : Bool :=
  !(pSform c.desc) || tileOk s (tabAt s (pW c.desc)) kb i

/-- FORM of the tile (kb, i): dense for a layout record. -/
def statForm (s : State) (c : Cmd) (kb i : Nat) : Nat :=
  if pSform c.desc then (tabEntry s (tabAt s (pW c.desc)) kb i).2 else 0

/-- Live K-lines of a bitmap tile. -/
def statLive (s : State) (c : Cmd) (kb i : Nat) : Nat :=
  popBits (rowMap s (tabEntry s (tabAt s (pW c.desc)) kb i).1) 256

/-- Whether the tile is below the hand-off threshold (R213). -/
def subThreshold (s : State) (c : Cmd) (kb i : Nat) : Bool :=
  statForm s c kb i == 2 && 0 < statLive s c kb i && statLive s c kb i < c.lat.density

/-- Whether the tile is handed off: the command's conditions held when it started (R213). -/
def handedOff (s : State) (c : Cmd) (kb i : Nat) : Bool := c.hoff && statTileOk s c kb i && subThreshold s c kb i

/-- Whether a K-block of an output tile runs on the arrays: not handed off and not without a live K-line (R210, R214). -/
def blockRuns (s : State) (c : Cmd) (kb i : Nat) : Bool :=
  !(handedOff s c kb i) && !(statForm s c kb i == 2 && statLive s c kb i == 0)

/-- Whether the K-block is a 2:4 tile that can be half of a double tile (R208, R209). -/
def halfTile (s : State) (c : Cmd) (kb i : Nat) : Bool := statForm s c kb i == 1 && (statFmt s c).fmt != .fp32 && statTileOk s c kb i

/-- The cell rows of a bitmap K-block in a bundle of k (R210). -/
def bundleRows (s : State) (c : Cmd) (k kb i : Nat) : Nat := k * ceilDiv (statLive s c kb i) k

/-- The further K-blocks of a bundle from `kb` on: at most `n`, `used` holds the rows each strip has taken (R210, R211). -/
def bundleMore (s : State) (c : Cmd) (k : Nat) (strips : List Nat) : Nat → Nat → Nat → List Nat → List Nat
  | 0, _, _, _ => []
  | fuel + 1, n, kb, used =>
    if n = 0 || ceilDiv (pKExt c.desc) 256 ≤ kb || !(strips.all (fun i => statForm s c kb i == 2 && !(handedOff s c kb i))) then []
    else if strips.all (fun i => statLive s c kb i == 0) then bundleMore s c k strips fuel n (kb + 1) used
    else
      let next := (used.zip strips).map (fun p => p.1 + bundleRows s c k kb p.2)
      if next.all (· ≤ 256) then kb :: bundleMore s c k strips fuel (n - 1) (kb + 1) next else []

/-- The traversals over the K-blocks from `kb` on for strips that run together: double tiles, bundles or one K-block (R208, R210, R211). -/
def traversals (s : State) (c : Cmd) (k : Nat) (strips : List Nat) : Nat → Nat → List (List Nat)
  | 0, _ => []
  | fuel + 1, kb =>
    let jn := ceilDiv (pKExt c.desc) 256
    if jn ≤ kb then []
    else if !(strips.any (blockRuns s c kb)) then traversals s c k strips fuel (kb + 1)
    else if kb % 2 = 0 && kb + 1 < jn && strips.all (fun i => halfTile s c kb i && halfTile s c (kb + 1) i) then
      [kb, kb + 1] :: traversals s c k strips fuel (kb + 2)
    else
      let b := bundleMore s c k strips fuel 4 kb (strips.map (fun _ => 0))
      match b.getLast? with
      | some l => b :: traversals s c k strips fuel (l + 1)
      | none => [kb] :: traversals s c k strips fuel (kb + 1)

/-- The traversals of an output tile's strips. -/
def kStages (s : State) (c : Cmd) (k : Nat) (strips : List Nat) : List (List Nat) :=
  traversals s c k strips (ceilDiv (pKExt c.desc) 256 + 1) 0

/-- Cells filled up with empty ones to whole step groups of k (R91, R210). -/
def padCells {α : Type} (k : Nat) (l : List (List α)) : List (List α) := l ++ List.replicate ((k - l.length % k) % k) []

/-- The stored cells of a traversal on the path of output `o` of strip `i`. -/
def stageRaw (s : State) (c : Cmd) (k : Nat) (kbs : List Nat) (o : Nat) : List RawCell :=
  kbs.flatMap (fun kb => if blockRuns s c kb (o / 256) then padCells k (statRaw s c kb o) else [])

/-- The cells of a traversal on the path of output `o`. -/
def stageCells (s : State) (c : Cmd) (k : Nat) (kbs : List Nat) (o : Nat) : List Cell :=
  (stageRaw s c k kbs o).map (cellOf ⟨statFmt s c, c.lat.policy == 3⟩)

/-- The conditions of R213 on the command alone, at its start. -/
def hoffConditions (s : State) (c : Cmd) : Bool :=
  let d := c.desc
  pSform d && bitOf (dNum d 0x67 1) 0 && (dOp d == 2 || bitsOf (dNum d 0x66 1) 4 2 == 0) &&
    (c.lat.policy == 0 || c.lat.policy == 1) && c.guard.isNone && rd s sivHringCtlSizeLog2 != 0 &&
    dStamp d < dNum d 0x60 4 && dNum d 0x70 8 != 0 && dNum d 0x70 8 % 64 == 0

/-- Tiles that are below the threshold, as (K-block, strip) in ascending entry index. -/
def thinTiles (s : State) (c : Cmd) : List (Nat × Nat) :=
  if pSform c.desc then
    (List.range (ceilDiv (pKExt c.desc) 256)).flatMap (fun kb =>
      ((List.range (ceilDiv (pNExt c.desc) 256)).filter (fun i => statTileOk s c kb i && subThreshold s c kb i)).map
        (fun i => (kb, i)))
  else []

/-! ### Hand-off records (R214) -/

/-- A hand-off record without its timestamp and SEQ. -/
def handoffBytes (s : State) (c : Cmd) (gen : Nat) (kb i : Nat) (last : Bool) : List Byte :=
  let d := c.desc
  natLE (dStamp d) 4 ++ natLE (dNum d 0x60 4) 4 ++ natLE (bitsOf (dNum d 0x57 1) 0 6) 1 ++ natLE gen 1 ++ natLE kb 2 ++
    natLE i 2 ++ natLE (flagIf last 1) 1 ++ natLE 0 1 ++ natLE (tabEntry s (tabAt s (pW d)) kb i).1 8 ++
    natLE (dNum d 0x20 8) 8 ++ natLE (dNum d 0x70 8) 8 ++ natLE (dNum d 0x50 4) 4 ++ natLE (dStep d) 4

/-- The records of a command's handed-off tiles, the last one marked. -/
def handoffList (s : State) (c : Cmd) (gen : Nat) : List HandOff :=
  let ts := if c.hoff then thinTiles s c else []
  (ts.zip (List.range ts.length)).map (fun p =>
    ⟨c.key, handoffBytes s c gen p.1.1 p.1.2 (p.2 + 1 == ts.length)⟩)

/-- The bytes of a record as it is written: timestamp and SEQ (R214). -/
def handoffRecord (s : State) (h : HandOff) : List Byte :=
  h.bytes ++ natLE (now s) 8 ++ natLE (rd s sivHringHeadIndex) 4 ++ natLE 0 4

/-- Where the next record goes. -/
def handoffAddr (s : State) : Nat :=
  rd s sivHringBaseAddr + 64 * (rd s sivHringHeadIndex % 2 ^ rd s sivHringCtlSizeLog2)

/-- Whether the write of a record is on its way. -/
def handoffWaits (s : State) : Bool := (openReqs s).any (fun r => match r.why with
  | .handoff _ => true
  | _ => false)

/-- Whether the hand-off ring has room (R214). -/
def hringRoom (s : State) : Bool :=
  (rd s sivHringHeadIndex + 2 ^ 32 - rd s sivHringTailIndex) % 2 ^ 32 < 2 ^ rd s sivHringCtlSizeLog2

/-- HANDOFF_RECORD: the oldest waiting record enters the ring when it has room and the one before is acknowledged; a full ring sets HOFF_FULL
(R214). -/
def execHandoffRecord (s : State) : Host.Outcome State Fault Refusal :=
  match s.handoffs with
  | [] => .next s
  | h :: _ =>
    if unitsRun s && !(handoffWaits s) then
      if hringRoom s then
        let s1 := s.store (handoffAddr s) (handoffRecord s h)
        .next (settle s (askRuns s1 true (writtenRuns s1.wbuf) (.handoff h.key)))
      else .next (settle s (setEvt s evHoffFull))
    else .next s

/-- The write of a record is acknowledged: HEAD passes it and HOFF is set (R214, R398). -/
def handoffDone (s : State) : State :=
  let s1 := wr { s with handoffs := s.handoffs.drop 1 } sivHringHeadIndex ((rd s sivHringHeadIndex + 1) % 2 ^ 32)
  setEvt (bump s1 sivHoffCountHandoffs 1) evHoff

/-- The records of a command that has failed are not written (R215). -/
def dropHandoffs (s : State) (key : Nat) : State := { s with handoffs := s.handoffs.filter (fun h => h.key != key) }

/-! ### COMPRESS (R205 to R207) -/

/-- A dense source: its record with K-lines as rows. -/
def srcElem (s : State) (l : Layout) (kb ob q c : Nat) : Nat × Nat :=
  (loadScale s l (256 * kb + q) (256 * ob + c), loadRaw s l (256 * kb + q) (256 * ob + c))

/-- Whether an element is nonzero: NaN and Inf count (R206). -/
def srcNonzero (f : ElemFmt) (e : Nat × Nat) : Bool := !((elemVal f e.1 e.2).isZero)

/-- The positions a 2:4 group stores for one output, when at most two elements are nonzero (R206): position and whether the element is stored
there. A single missing element, that of line 2m + 1, takes the lowest unused position (DEDUCED, log 59); with no unused K-line left its code is 0. -/
def pick24 (nz : List Bool) : Option ((Nat × Bool) × (Nat × Bool)) :=
  let ps := (List.range nz.length).filter (fun i => (nz[i]?).getD false)
  let free := (List.range 4).filter (fun i => !(ps.contains i))
  let spare := free.filter (fun i => i < nz.length)
  match ps with
  | [] => some (((spare.head?).getD 0, false), ((spare[1]?).getD 0, false))
  | [a] => some ((a, true), ((spare.head?).getD 0, false))
  | [a, b] => some ((a, true), (b, true))
  | _ => none

/-- An element as it is written again: a NaN becomes canonical (R39). -/
def canonRaw (code raw : Nat) : Nat :=
  match fmtOf code with
  | some .int8 => raw
  | some f => if (decodeFloat f.ff raw).isNaN then encodeRNE f.ff .nan else raw
  | none => raw

/-- The packed bytes of one line of raw elements (R201). -/
def packLine (code : Nat) (raws : List Nat) : List Byte :=
  padTo (lineBytes code raws.length) (packRow (codeBits code) (raws.map (canonRaw code)))

/-- The scale bytes of K-line `q`. -/
def lineScales (s : State) (l : Layout) (kb ob q ol : Nat) : List Byte :=
  if l.mx then (List.range (ceilDiv ol 32)).flatMap (fun b => natLE (srcElem s l kb ob q (32 * b)).1 1) else []

/-- The header of a tile (R200). -/
def tileHeader (l : Layout) (form kl ol live payload map : Nat) : List Byte :=
  natLE 0x4B544C46 4 ++ natLE form 1 ++ natLE (l.code + flagIf l.mx 16) 1 ++ natLE ((l.texp % 256).toNat) 1 ++ zeros 1 ++
    natLE kl 2 ++ natLE ol 2 ++ natLE live 2 ++ zeros 2 ++ natLE payload 4 ++ zeros 12 ++ natLE map 32

/-- The smallest allowed tile of the source at (kb, ob): FORM and bytes (R206). -/
def compressTile (s : State) (l : Layout) (forms kext next kb ob : Nat) : Nat × List Byte :=
  let f := layoutFmt l
  let kl := min 256 (kext - 256 * kb)
  let ol := min 256 (next - 256 * ob)
  let row := fun q => (List.range ol).map (fun c => (srcElem s l kb ob q c).2)
  let live := (List.range kl).filter (fun q => (List.range ol).any (fun c => srcNonzero f (srcElem s l kb ob q c)))
  let g4 := ceilDiv kl 4
  let picks := fun m c => pick24 ((List.range (min 4 (kl - 4 * m))).map (fun p => srcNonzero f (srcElem s l kb ob (4 * m + p) c)))
  let can24 := bitOf forms 0 && (List.range g4).all (fun m => (List.range ol).all (fun c => (picks m c).isSome))
  let size := fun form => payloadBytes l.code l.mx form kl ol live.length
  let best := if can24 && size 1 < size 0 then 1 else 0
  let form := if bitOf forms 1 && size 2 < size best then 2 else best
  let body := match form with
    | 0 => (List.range kl).flatMap (fun q => packLine l.code (row q)) ++
        (List.range kl).flatMap (fun q => lineScales s l kb ob q ol)
    | 1 =>
      let at2 := fun m c e => ((picks m c).map (fun p => if e = 0 then p.1 else p.2)).getD (0, false)
      (List.range (2 * g4)).flatMap (fun ln => packLine l.code ((List.range ol).map (fun c =>
          let p := at2 (ln / 2) c (ln % 2)
          if p.2 then (srcElem s l kb ob (4 * (ln / 2) + p.1) c).2 else 0))) ++
        (List.range g4).flatMap (fun m => (List.range (ceilDiv ol 2)).flatMap (fun b =>
          let nib := fun c => if c < ol then (at2 m c 0).1 + 4 * (at2 m c 1).1 else 0
          natLE (nib (2 * b) + 16 * nib (2 * b + 1)) 1)) ++
        (List.range kl).flatMap (fun q => lineScales s l kb ob q ol)
    | _ => live.flatMap (fun q => packLine l.code (row q)) ++ live.flatMap (fun q => lineScales s l kb ob q ol)
  let map := if form = 2 then live.foldl (fun a q => a + 2 ^ q) 0 else 0
  (form, tileHeader l form kl ol (if form = 2 then live.length else 0) (size form) map ++ body)

/-- The table's header (R199). -/
def tabHeader (l : Layout) (kext next : Nat) (valid : Bool) (bytes : Nat) : List Byte :=
  natLE 0x54544246 4 ++ natLE 1 2 ++ natLE (l.code + flagIf l.mx 16) 1 ++ natLE ((l.texp % 256).toNat) 1 ++ natLE kext 4 ++
    natLE next 4 ++ natLE (ceilDiv kext 256) 2 ++ natLE (ceilDiv next 256) 2 ++ natLE (flagIf valid 1) 1 ++ zeros 35 ++
    natLE bytes 8

/-- What COMPRESS has written so far: the state, the end of the last tile, the entries, whether it ran out of room. -/
structure CompRun where
  st      : State
  addr    : Nat
  entries : List (Nat × Nat)
  full    : Bool

/-- Write the tile of one entry at the next multiple of 64, the bytes in between 0 (R207, log 59). -/
def compressStep (l : Layout) (forms kext next limit : Nat) (a : CompRun) (p : Nat × Nat) : CompRun :=
  if a.full then { a with entries := a.entries ++ [(0, 0)] }
  else
    let t := compressTile a.st l forms kext next p.1 p.2
    let o := roundUp a.addr 64
    if limit < o + t.2.length then { a with full := true, entries := a.entries ++ [(0, 0)] }
    else
      let cnt := match t.1 with
        | 0 => sivCompFormsDense
        | 1 => sivCompFormsSparse24
        | _ => sivCompFormsBitmap
      { a with st := bump ((a.st.store a.addr (zeros (o - a.addr))).store o t.2) cnt 1
               addr := o + t.2.length, entries := a.entries ++ [(o, t.1)] }

/-- The run of a COMPRESS: the state and whether every tile found room; the table is written last (R207). After NO_SPACE the table's BYTES are
those of the tiles written and the entries of the others are 0 (DESIGN CHOICE, log 75). -/
def compressRun (s : State) (d : List Byte) : State × Bool :=
  let l := layoutAt s (dNum d 0x20 8)
  let kext := axisExtent l true
  let next := axisExtent l false
  let data := dNum d 0x30 8
  let idx := (List.range (ceilDiv kext 256)).flatMap (fun kb => (List.range (ceilDiv next 256)).map (fun ob => (kb, ob)))
  let r := idx.foldl (compressStep l (bitsOf (dNum d 0x40 1) 0 2) kext next (data + dNum d 0x38 8)) ⟨s, data, [], false⟩
  let table := tabHeader l kext next (!r.full) (r.addr - data) ++ r.entries.flatMap (fun e => natLE (e.1 + e.2) 8)
  (r.st.store (dNum d 0x28 8) table, !r.full)

/-- COMPRESS, in its turn (R311). -/
def execCompress (r : CmdRef) (s : State) : Host.Outcome State Fault Refusal :=
  runUnit s (refKey r) (fun c => isOp 0x11 c && unitTurn s c (isOp 0x11)) (fun s c =>
    let x := compressRun s c.desc
    endCmd x.1 c.key (if x.2 then stOK else stNoSpace) 0 0)

end Sys2Proof.Machine
end

