-- ==== Sys2Proof/Machine/Loader.lean ====
section
/-! DEFINITION. The Trowel loaders on the way in (07 R180 to R188, R193, R195): the operands of a product command in blocks of a row window by
256 columns, what each core holds of them in its stage buffer, and the row screen (03 R67, R68). -/

namespace Sys2Proof.Machine

/-! ### Fields of a product command (R119, R301) -/

def isProduct (d : List Byte) : Bool := dOp d == 0x02 || dOp d == 0x03 || dOp d == 0x04 || dOp d == 0x05
def pM (d : List Byte) : Nat := dNum d 0x50 4
def pMode (d : List Byte) (i : Nat) : Bool := bitOf (dNum d 0x67 1) i
def pGroup (d : List Byte) : Nat := bitsOf (dNum d 0x57 1) 0 6
def pAgroup (d : List Byte) : Nat := bitsOf (dNum d 0x5B 1) 0 6
def pRank (d : List Byte) : Nat := bitsOf (dNum d 0x64 2) 0 9
def pDfunc (d : List Byte) : Nat := if dOp d = 2 then 0 else bitsOf (dNum d 0x66 1) 0 4
def pDsrc (d : List Byte) : Nat := if dOp d = 2 then 0 else bitsOf (dNum d 0x66 1) 4 2
def pAlpha (d : List Byte) : Val := f32Val (dNum d 0x5C 4)
def pFrozen (d : List Byte) : Bool := dOp d == 5 && pMode d 1
def pAdapt (d : List Byte) : Bool := dOp d == 5 && pMode d 2
def pSingles (d : List Byte) : Bool := dOp d != 5 || pMode d 3

/-- Whether a stationary-mode result goes to the group: DXDEST or DEST (R301). -/
def pToGroup (d : List Byte) : Bool := (dOp d == 2 || dOp d == 3) && pMode d 0

/-- Whether the command has a stationary-mode product, an outer product, an output store. -/
def pStationary (d : List Byte) : Bool := dOp d == 2 || dOp d == 3 || dOp d == 5
def pOuter (d : List Byte) : Bool := dOp d == 4 || (dOp d == 5 && !pFrozen d)
def pStores (d : List Byte) : Bool := pStationary d && !pToGroup d

/-- Windows, strips and out-tiles (05 Units, lanes and the walk). -/
def pV (d : List Byte) : Nat := ceilDiv (pM d) 256
def pI (d : List Byte) : Nat := ceilDiv (pNExt d) 256
def pJ (d : List Byte) : Nat := ceilDiv (pKExt d) 256

def dyLay (s : State) (d : List Byte) : Layout := layoutAt s (dNum d 0x20 8)
def xLay (s : State) (d : List Byte) : Layout := layoutAt s (dNum d 0x30 8)
def savLay (s : State) (d : List Byte) : Layout := layoutAt s (dNum d 0x38 8)
def hLay (s : State) (d : List Byte) : Layout := layoutAt s (dNum d 0x48 8)

/-- Rows of a window (R87). -/
def windowRows (c : Cmd) (v : Nat) : Nat := min 256 (pM c.desc - 256 * v)

/-! ### Operands and blocks -/

/-- A part of the operands that is read on its own. `op`: 0 the tags of window `window`, 1 to 4 its rows of dY (or A), the saved operand, X and H in
columns 256 `block` to 256 `block` + 255, 5 the tile table, 6 the header and 7 the body of stationary tile (`window`, `block`). `lane` is one more than
the lane that keeps its own copy (R127), 0 for what a core's lanes share, 63 for the predictor's (R217). -/
structure Blk where
  op     : Nat
  lane   : Nat
  window : Nat
  block  : Nat
  deriving DecidableEq, Repr

/-- The number a block has among the parts of its command. -/
def Blk.code (b : Blk) : Nat := b.op + 8 * (b.lane + 64 * (b.block + 2 ^ 16 * b.window))

/-- A streamed operand's layout record and its columns. -/
def opLay (s : State) (d : List Byte) (op : Nat) : Layout :=
  match op with
  | 1 => dyLay s d
  | 2 => savLay s d
  | 3 => xLay s d
  | _ => hLay s d
def opCols (d : List Byte) (op : Nat) : Nat := if op = 3 then pNExt d else if op = 4 then pRank d else pKExt d

/-- The streamed operands of a command, and those that are screened: mask bits never are (R187). -/
def opsOf (d : List Byte) : List Nat :=
  [1] ++ (if pDsrc d = 0 then [] else [2]) ++ (if pOuter d then [3] else []) ++ (if pAdapt d then [4] else [])
def screenedOps (d : List Byte) : List Nat := (opsOf d).filter (fun op => op != 2 || pDsrc d != 3)

/-- The rows and columns of the stationary tile (kb, i) in its record: first row, rows, first column, columns (R90). -/
def statRegion (d : List Byte) (kb i : Nat) : Nat × Nat × Nat × Nat :=
  let k := min 256 (pKExt d - 256 * kb)
  let o := min 256 (pNExt d - 256 * i)
  if dOp d = 2 then (256 * kb, k, 256 * i, o) else (256 * i, o, 256 * kb, k)

/-- The key of the copies LOADW leaves in the stage buffers; their part is the address of the operand's record (R303). -/
def copyKey : Nat := 18 * 2 ^ 32

/-- Whether a core holds a copy of the stationary operand that LOADW has left. -/
def copyHeld (s : State) (c : Cmd) (core : Nat) : Bool :=
  s.staged.any (fun e => e.key == copyKey && e.core == core && e.part == pW c.desc)

/-- The state as the arrays of a core read it for a command: through what the core's stage buffer holds (R180). -/
def coreView (s : State) (c : Cmd) (core : Nat) : State :=
  { s with rbuf := (s.staged.filter (fun e => e.core == core && (e.key == c.key || (e.key == copyKey && e.part == pW c.desc)))).flatMap (·.cells) }

/-- The same over all cores. -/
def allView (s : State) (c : Cmd) : State :=
  { s with rbuf := (s.staged.filter (fun e => e.key == c.key || (e.key == copyKey && e.part == pW c.desc))).flatMap (·.cells) }

/-- The runs of bytes of a block, as the core that reads it knows them. -/
def blkRuns (s : State) (c : Cmd) (core : Nat) (b : Blk) : List (Nat × Nat) :=
  let d := c.desc
  let v := coreView s c core
  match b.op with
  | 0 => if dTags d = 0 then [] else [(dTags d + 1024 * b.window, 4 * windowRows c b.window)]
  | 5 => if pSform d then [(pW d, 64 + 8 * (pJ d * pI d))] else []
  | 6 => if pSform d then [((tabEntry v (tabAt v (pW d)) b.window b.block).1, 64)] else []
  | 7 =>
    if pSform d then
      let t := tabAt v (pW d)
      let e := tabEntry v t b.window b.block
      if tileOk v t b.window b.block then
        [(e.1 + 64, payloadBytes t.code t.mx e.2 (tileKLines t b.window) (tileOLines t b.block) (popBits (rowMap v e.1) 256))]
      else []
    else
      let r := statRegion d b.window b.block
      operandRuns s (layoutAt s (pW d)) r.1 r.2.1 r.2.2.1 r.2.2.2
  | op => operandRuns s (opLay s d op) (256 * b.window) (windowRows c b.window) (256 * b.block) (min 256 (opCols d op - 256 * b.block))

/-- Bytes of `n` rows of `cols` elements in their staged form (R184, R186). -/
def stagedSize (l : Layout) (n cols : Nat) : Nat :=
  if l.kind = 2 then n * ceilDiv cols 8
  else if l.mx then n * (if axisRow l 0 then 2 * cols else cols + ceilDiv cols 32)
  else n * runBytes (layoutBits l) cols

/-- The space a block takes in the stage buffer; the predictor keeps its sketches alone. -/
def blkSize (s : State) (c : Cmd) (core : Nat) (b : Blk) : Nat :=
  let d := c.desc
  if b.lane = 63 then 0
  else if 1 ≤ b.op && b.op ≤ 4 then stagedSize (opLay s d b.op) (windowRows c b.window) (min 256 (opCols d b.op - 256 * b.block))
  else if b.op = 7 && !(pSform d) then
    let r := statRegion d b.window b.block
    stagedSize { layoutAt s (pW d) with axis := 0 } r.2.1 r.2.2.2
  else (blkRuns s c core b).foldl (fun n x => n + x.2) 0

/-- Whether a block is of no bytes: absent tags, the parts only a tile table has. -/
def blkVoid (c : Cmd) (b : Blk) : Bool := (b.op == 0 && dTags c.desc == 0) || ((b.op == 5 || b.op == 6) && !(pSform c.desc))

/-- Whether a core has asked for a block, or has it from LOADW. -/
def blkAsked (s : State) (c : Cmd) (core : Nat) (b : Blk) : Bool :=
  blkVoid c b || (5 ≤ b.op && copyHeld s c core) || s.staged.any (fun e => e.key == c.key && e.core == core && e.part == b.code)

/-- Whether a core holds a block. -/
def blkHeld (s : State) (c : Cmd) (core : Nat) (b : Blk) : Bool := blkAsked s c core b && !(partWaits s c.key core b.code)

/-- Whether a region of a streamed operand has arrived as far as block `b` holds it: no read that covers a byte of it is open (R103). -/
def regionHere (s : State) (c : Cmd) (core : Nat) (b : Blk) (r0 nr c0 nc : Nat) : Bool :=
  let rs := operandRuns s (opLay s c.desc b.op) r0 nr c0 nc
  blkAsked s c core b && (openReqs s).all (fun q => q.why != .cmdRead c.key core b.code ||
    q.strobes.all (fun x => rs.all (fun y => x.1 + x.2 ≤ y.1 || y.1 + y.2 ≤ x.1)))

/-! ### The stage buffer (R7, R126, R181) -/

/-- Retired stage-buffer pages of a core (R376). -/
def retiredPages (s : State) (n : Nat) : Nat := (List.range 4).foldl (fun k i => k + popcount (rd s (corSbRetirePages n i)) 64) 0

/-- The bytes of a core's stage buffer for operands: 256 pages of 64 KiB less the retired ones and, in core 0, the hod's 96 (R126, R376). -/
def stageSpace (s : State) (core : Nat) : Nat := 65536 * (256 - retiredPages s core - (if core = 0 then 96 else 0))

/-- The bytes of it in use. -/
def stageUsed (s : State) (core : Nat) : Nat := (s.staged.filter (fun e => e.core == core)).foldl (fun n e => n + e.size) 0

/-- Take what satisfies a test out of a core's stage buffer; the copies of LOADW with no core left go with their last one. -/
def dropStaged (s : State) (p : Staged → Bool) : State :=
  let l := s.staged.filter (fun e => !(p e))
  { s with staged := l, loadw := s.loadw.filter (fun w =>
      !(s.staged.any (fun e => e.key == copyKey && e.part == w)) || l.any (fun e => e.key == copyKey && e.part == w)) }

/-- Sectors read beyond what the runs need (R193). -/
def extraSectors (rs : List (Nat × Nat)) : Nat := rs.foldl (fun n r => n + (ceilDiv (r.1 % 64 + r.2) 64 - ceilDiv r.2 64)) 0

/-- Unit bytes a block passes through the exchange network: a transposed streamed operand's alone (R182). -/
def xposeBytes (l : Layout) (n cols : Nat) : Nat :=
  if axisRow l 0 then n * cols * (if l.mx then 2 else ceilDiv (layoutBits l) 8) else 0

/-- Read a block for a core: its requests, its place in the stage buffer, the loader's counters (R193, R197). -/
def askBlk (s : State) (c : Cmd) (core : Nat) (b : Blk) : State :=
  let rs := blkRuns s c core b
  let s1 := bump s (ofLoader trwRdBytesCount core) (rs.foldl (fun n r => n + r.2) 0)
  let s1 := bump s1 (ofLoader trwExtraSectorsCount core) (extraSectors rs)
  let s1 := if 1 ≤ b.op && b.op ≤ 4 then
      bump s1 (ofLoader trwXposeBytesCount core)
        (xposeBytes (opLay s c.desc b.op) (windowRows c b.window) (min 256 (opCols c.desc b.op - 256 * b.block)))
    else s1
  askReads { s1 with staged := s1.staged ++ [⟨c.key, core, b.code, blkSize s c core b, []⟩] } c.key core b.code rs

/-! ### The row screen (R67, R68, R187) -/

/-- Whether row `r` contributes products: the ledger let it enter and the policy kept it (R88, R225, R68). -/
def rowPart (c : Cmd) (r : Nat) : Bool := !(c.husked.contains r)

/-- Whether a tile of the walk uses block `b` of operand `op` in window `w`. -/
def usesBlk (d : List Byte) (op w b : Nat) (i : Item) : Bool :=
  match i.kind with
  | .stat => op ≤ 2 && (if dOp d = 5 then i.c == b else i.r == w)
  | .dw => if op ≤ 2 then i.c == b else op == 3 && i.r == b
  | .db => if op ≤ 2 then i.c == b else op == 4

/-- The block a tile reads: dY and the saved operand of a PAIR belong to its lane (R127). -/
def blkOf (d : List Byte) (op w b : Nat) (i : Item) : Blk := ⟨op, if dOp d = 5 && op ≤ 2 then i.lane + 1 else 0, w, b⟩

/-- The blocks in which the rows of window `w` are read for the first time, with their cores: each operand's by the first tile that uses it, since a
row group waits for the marks of its whole rows (R187; DESIGN CHOICE, log 78), of a guarded command by the predictor (R217); and the tags on each of
those cores. -/
def screenBlks (c : Cmd) (w : Nat) : List (Nat × Blk) :=
  let own := fun (b : Blk) => if c.guard.isSome then { b with lane := 63 } else b
  let bs := (opsOf c.desc).flatMap (fun op => (List.range (ceilDiv (opCols c.desc op) 256)).filterMap (fun b =>
    (c.items.find? (usesBlk c.desc op w b)).map (fun i => (i.array / 4, own (blkOf c.desc op w b i)))))
  (bs.map (·.1)).eraseDups.map (fun core => (core, own ⟨0, 0, w, 0⟩)) ++ bs

/-- The non-finite elements of row `r` in an operand, by their columns. -/
def rowBad (s : State) (d : List Byte) (op r : Nat) : List Nat :=
  (List.range (opCols d op)).filter (fun q => (loadVal s (opLay s d op) r q).nonFinite)

/-- Screen one row, read through `v` in the blocks `bs` (R187, R225, R226): ledger counts, marks, TRW counters of the loaders that read a non-finite
element, the advisor's SCREEN_NF, the trap of the lowest marked row. -/
def screenRow (v : State) (bs : List (Nat × Blk)) (r : Nat) (a : State × Cmd) : State × Cmd :=
  let c := a.2
  let d := c.desc
  let t := tagOf v d r
  let bad := if ledgerDecide (viewOf a.1 c) t == .enter then
      ((screenedOps d).map (fun op => (op, rowBad v d op r))).filter (fun p => !p.2.isEmpty) else []
  let j := judgeRow a.1 (viewOf a.1 c) c.lat.policy t (!bad.isEmpty)
  let s := (bs.map (·.1)).eraseDups.foldl (fun s core => bad.foldl (fun s p =>
    let n := (p.2.filter (fun q => bs.any (fun x => x.1 == core && x.2.op == p.1 && x.2.block == q / 256))).length
    if n = 0 then s
    else bump (bump s (ofLoader trwMarkedCount core) 1) (ofLoader trwMendedCount core) (if c.lat.policy = 3 then n else 0)) s) j.1
  (s, { c with
    marks := c.marks ++ j.2.2
    husked := if j.2.1 == .part then c.husked else c.husked ++ [r]
    adv := if bad.isEmpty then c.adv else { c.adv with screenNf := satAdd 32 c.adv.screenNf 1 }
    trapRow := if j.2.1 == .trap && c.trapRow.all (fun x => r < x.1) then some (r, tagSlot t) else c.trapRow })

/-- Whether the next window to be screened has arrived and may be screened (R187, R227). -/
def windowHere (s : State) (c : Cmd) : Bool :=
  c.screened < pM c.desc && canScreen s c && (screenBlks c (c.screened / 256)).all (fun x => blkHeld s c x.1 x.2)

/-- Screen the next window; the marks take effect with the last row (R228). -/
def screenWindow (s : State) (c : Cmd) : State × Cmd :=
  let w := c.screened / 256
  let c := if c.view.isNone && takesView c.desc then { c with view := some s.ledger } else c
  let v := allView s c
  let x := (List.range (windowRows c w)).foldl (fun a i => screenRow v (screenBlks c w) (256 * w + i) a) (s, c)
  let c1 := { x.2 with screened := 256 * w + windowRows c w }
  if c1.screened = pM c.desc then (applyMarks x.1 c1.marks, { c1 with marks := [] }) else (x.1, c1)

/-- Screen what has arrived. -/
def screenArrived (s : State) (c : Cmd) : State × Cmd :=
  iter (fun a => if windowHere a.1 a.2 then screenWindow a.1 a.2 else a) (pV c.desc) (s, c)

/-- Write a command back. -/
def putCmd (s : State) (c : Cmd) : State := modCmd s c.key (fun _ => c)

/-- Bytes read for a part of a command join what its unit holds; a block of a product that has been dropped meanwhile takes none. -/
def partArrived (s : State) (key core part : Nat) (cells : List Host.Cell) : State :=
  if (findCmd s key).any (fun c => isProduct c.desc) && core < 7 && !(s.staged.any (fun e => e.key == key && e.core == core && e.part == part)) then s
  else holdBytes s key core part cells

/-- Bytes of a part of a command have arrived (R187). -/
def rowsArrived (s : State) (key : Nat) : State :=
  match findCmd s key with
  | some c => if isProduct c.desc && c.phase == .started then (let a := screenArrived s c; putCmd a.1 a.2) else s
  | none => s

end Sys2Proof.Machine
end

