-- ==== Sys2Proof/Machine/Product.lean ====
section
/-! DEFINITION. Products (04_product_arrays, 05_gradient_pair, 03 R56 to R70): operand values, dY′, cell steps and canonical sums, the dealing of
tiles to lanes, folds of finished planes, stores of results, the end of a product command, and LOADW. -/

namespace Sys2Proof.Machine

/-! ### Operand values and dY′ (R132 to R137) -/

/-- Element (r, q) of a streamed operand as the arrays see it: mended under MEND. -/
def streamVal (s : State) (c : Cmd) (l : Layout) (r q : Nat) : Val :=
  let v := loadVal s l r q
  if c.lat.policy = 3 then mendVal (layoutFmt l) (loadScale s l r q) v else v

/-- f′ at (r, q) (R134). -/
def fPrime (s : State) (c : Cmd) (r q : Nat) : Val :=
  let d := c.desc
  if pDsrc d = 3 then derivMask (pDfunc d) (pAlpha d) (loadRaw s (savLay s d) r q == 1)
  else derivElem (pDfunc d) (pDsrc d) (pAlpha d) (streamVal s c (savLay s d) r q)

/-- The exact product dY × f′ at (r, q) (R136). -/
def dyTerm (s : State) (c : Cmd) (r q : Nat) : Val := mulVal (streamVal s c (dyLay s c.desc) r q) (fPrime s c r q)

/-- The positions of the MX block of (r, q) whose rows take part. -/
def dyPeers (s : State) (c : Cmd) (r q : Nat) : List (Nat × Nat) :=
  (blockOf (dyLay s c.desc) r q).filter (fun p => rowPart c p.1)

/-- dY′ at (r, q) of a row that takes part, and what its formation adds to DERIV_SAT (R136, R137). -/
def dyPrime (s : State) (c : Cmd) (r q : Nat) : Val × Nat :=
  let l := dyLay s c.desc
  if pDsrc c.desc = 0 then (streamVal s c l r q, 0)
  else if l.mx then
    let ps := dyPeers s c r q
    let b := dyBlock (layoutFmt l).fmt (ps.map (fun p => dyTerm s c p.1 p.2))
    ((((ps.zip b.1).find? (fun p => p.1 == (r, q))).map (·.2)).getD .nan, if ps.head? == some (r, q) then b.2 else 0)
  else
    let x := dyPlain (layoutFmt l) (dyTerm s c r q)
    (x.1, if x.2 then 1 else 0)

/-- The saturated elements of one formation of dY′ over `rows` rows from `r0` and the columns of out-tiles `js`. -/
def derivSat (s : State) (c : Cmd) (r0 rows : Nat) (js : List Nat) : Nat :=
  if pDsrc c.desc = 0 then 0
  else
    (List.range rows).foldl (fun a i =>
      if rowPart c (r0 + i) then
        js.foldl (fun a j => (List.range (min 256 (pKExt c.desc - 256 * j))).foldl (fun a q =>
          a + (dyPrime s c (r0 + i) (256 * j + q)).2) a) a
      else a) 0

/-! ### Canonical sums (R56 to R61, R88 to R92) -/

/-- k of the stationary product, and of an outer product with operand `l` (R36). -/
def statK (s : State) (c : Cmd) : Nat := stepK (layoutFmt (dyLay s c.desc)).fmt (statFmt s c).fmt
def outerK (s : State) (c : Cmd) (l : Layout) : Nat := stepK (layoutFmt (dyLay s c.desc)).fmt (layoutFmt l).fmt

/-- The products of one step group for row `r`; a row that takes no part has none (R88). -/
def groupProducts (s : State) (c : Cmd) (r : Nat) (part : Bool) (g : List Cell) : List Val :=
  if part then g.flatten.map (fun x => mulVal (dyPrime s c r x.1).1 x.2) else []

/-- The sum of row `r` after some cells of its path, from the sum that comes in (R59, R91). -/
def pathSum (s : State) (c : Cmd) (r : Nat) (cells : List Cell) (x : BitVec 48) : BitVec 48 :=
  canonicalSum x ((chunksOf (statK s c) cells).map (groupProducts s c r (rowPart c r)))

/-- The cell step of outer-product mode for rows `rs`: entry (col of `l`, q of dY′) (R89). -/
def outerStep (s : State) (c : Cmd) (l : Layout) (col q : Nat) (a : BitVec 48) (rs : List Nat) : BitVec 48 :=
  cellStep a ((rs.filter (rowPart c)).map (fun r => mulVal (streamVal s c l r col) (dyPrime s c r q).1))

/-- The cell-step limit of R61. -/
def longsumLimit : Nat := 65536

/-! ### Dealing (R122, R123, R128) -/

/-- Deal tiles to lanes round-robin from turn `n`; a pair takes two of one window or out-tile together. -/
def dealTiles (kind : ItemKind) (ls : List Lane) : Nat → Nat → List (Nat × Nat) → List Item
  | 0, _, _ => []
  | _ + 1, _, [] => []
  | fuel + 1, n, t :: rest =>
    match ls[n % ls.length]? with
    | none => []
    | some l =>
      let mk := fun (t : Nat × Nat) (a : Nat) =>
        let rc := if kind == .dw then (t.2, t.1) else t
        (⟨kind, rc.1, rc.2, n % ls.length, a, .todo⟩ : Item)
      match rest with
      | u :: rest' =>
        if !l.single && u.1 == t.1 then mk t l.d :: mk u l.w :: dealTiles kind ls fuel (n + 1) rest'
        else mk t l.d :: dealTiles kind ls fuel (n + 1) rest
      | [] => [mk t l.d]

/-- The items of a PAIR: per unit its D work, its dW tile unless frozen, its dB tile in strip 0 (R123, R139). -/
def pairItems (d : List Byte) (ls : List Lane) : List Item :=
  (List.range (pI d * pJ d)).flatMap (fun n =>
    match ls[n % ls.length]? with
    | none => []
    | some l =>
      let i := n / pJ d
      let j := n % pJ d
      [⟨.stat, i, j, n % ls.length, l.d, .todo⟩] ++
        (if pFrozen d then [] else [⟨.dw, i, j, n % ls.length, l.w, .todo⟩]) ++
        (if pAdapt d && i == 0 then [⟨.db, 0, j, n % ls.length, l.w, .todo⟩] else []))

/-- The items of a product command on the lanes of the live map. -/
def dealItems (s : State) (d : List Byte) : List Item :=
  let ls := lanes s (pSingles d)
  let grid := fun (a b : Nat) => (List.range a).flatMap (fun x => (List.range b).map (fun y => (x, y)))
  if dOp d = 5 then pairItems d ls
  else if dOp d = 4 then dealTiles .dw ls (pJ d * pI d + 1) 0 (grid (pJ d) (pI d))
  else dealTiles .stat ls (pV d * pI d + 1) 0 (grid (pV d) (pI d))

/-! ### Folding a finished plane (R153 to R160, R167) -/

/-- The group, tile, rows and columns a fold of an item goes to (R439). -/
def itemFold (s : State) (d : List Byte) (i : Item) : Nat × Nat × Nat × Nat :=
  let g := if i.kind == .db then pAgroup d else pGroup d
  let t := i.r * groupTC (groupOf s g) + i.c
  match i.kind with
  | .stat => (g, t, min 256 (pM d - 256 * i.r), min 256 (pNExt d - 256 * i.c))
  | .dw => (g, t, min 256 (pNExt d - 256 * i.r), min 256 (pKExt d - 256 * i.c))
  | .db => (g, t, pRank d, min 256 (pKExt d - 256 * i.c))

/-- The divert and the preload bound to a fold of the command: bound earlier in the same queue (R167). -/
def divertFor (s : State) (c : Cmd) (g t : Nat) : Option Divert :=
  s.diverts.find? (fun x => x.q == c.q && x.stamp == dStamp c.desc && x.group == g && x.tile == t && serialLt x.owner c.seq)
def preloadFor (s : State) (c : Cmd) (g t : Nat) : Option Preload :=
  s.preloads.find? (fun x => x.q == c.q && x.stamp == dStamp c.desc && x.group == g && x.tile == t && serialLt x.owner c.seq)

/-- Set the sticky group flags of an accepted fold (R61, R135). -/
def foldFlags (s : State) (c : Cmd) (g : Nat) (long : Bool) : State :=
  let x := groupOf s g
  setGroup s g { x with longsum := x.longsum || long, surrogate := x.surrogate || derivSurrogate (pDfunc c.desc) (pDsrc c.desc) }

/-- The results of a fold joined into the command. -/
def noteFold (c : Cmd) (o : FoldOut) : Cmd :=
  { c with flags := c.flags ||| o.flags, status := max c.status o.status, adv := o.adv }

/-- The entries of an accepted fold as binary64 (R42). -/
def foldEntries (e : List (Nat × BitVec 48)) : List (Nat × BitVec 64) := e.map (fun p => (p.1, af48ToB64 p.2))

/-- A finished plane leaves for its tile at once: as a plane record under a divert, else as a fold that is refused, dropped or empty (R153, R167). A
bound divert writes the record whatever the fold would have met (DESIGN CHOICE, log 72). -/
def foldPlane (s : State) (c : Cmd) (i : Item) (count : Nat) (e : List (Nat × BitVec 48)) : State × Cmd :=
  let f := itemFold s c.desc i
  match divertFor s c f.1 f.2.1 with
  | some x =>
    (s.store x.addr (planeRecord f.2.2.1 count (dStamp c.desc) f.2.1 0 (longsumLimit < count) (fun k => (tfind e k).getD 0)), c)
  | none =>
    let go := foldCheck s f.1 f.2.1 (genOf c f.1) (dStamp c.desc) == .go
    let r := foldCells s c f.1 f.2.1 c.adv (foldEntries e)
    (if go then foldFlags r.1 c f.1 (i.kind != .stat && longsumLimit < count) else r.1, noteFold c r.2)

/-- The (key, value) entries of a plane over `rows` × `cols`. -/
def planeCells (rows cols : Nat) (v : Nat → Nat → BitVec 48) : List (Nat × BitVec 48) :=
  (List.range rows).flatMap (fun r => (List.range cols).map (fun q => (r * 256 + q, v r q)))

/-! ### Items of a command -/

/-- The place of a sum that has left the edge. -/
def auxKey (r o : Nat) : Nat := r * 2 ^ 24 + o

def setItem (c : Cmd) (k : Nat) (st : ItemState) : Cmd :=
  { c with items := c.items.mapIdx (fun i x => if i == k then { x with st := st } else x) }

/-- Note the cell steps of a pass on the command (R61). -/
def noteSteps (c : Cmd) (count : Nat) : Cmd := { c with flags := c.flags ||| flagIf (longsumLimit < count) flLongsum }

/-- Whether the values hold a NaN or Inf that arose inside an array and the command traps on it (R69). -/
def innerTraps (c : Cmd) (e : List (Nat × BitVec 48)) : Bool :=
  c.lat.policy == 2 && c.lat.innerTrap && e.any (fun p => af48NonFinite p.2)

/-- The row number of a trap that no streamed row has caused. -/
def noRow : Nat := 2 ^ 32

/-- A trap that names no slot (R69, R188). -/
def trapInner (c : Cmd) : Cmd := { c with trapRow := some (c.trapRow.getD (noRow, anonSlot)) }

/-- The commands that share a command's row window (R113). -/
def mates (s : State) (c : Cmd) : List Cmd := if c.pack.isEmpty then [c] else c.pack.filterMap (findCmd s)

/-- A fault of a part: all commands of a packed window take it (R114, R196). -/
def failPart (s : State) (c : Cmd) (core status : Nat) : State :=
  (mates s c).foldl (fun s m => modCmd s m.key (fun x => if x.phase == .started then noteErr x core status else x)) s

/-- Whether an array fails the passes it meets: it has failed in service, or its bit of ARR_FAIL is set (R112, R365). -/
def failedArray (s : State) (a : Nat) : Bool := s.arrFail.contains a || bitOf (rd s rasArrFailArrays) a

/-- The core a damaged word belongs to. -/
def damageCore (d : Damage) : Nat := if d.cls = 4 || d.cls = 5 then d.unit / 4 else if d.cls = 3 || d.cls = 6 then d.unit else 7

/-- Whether work on array `a` reads a damaged word: stage buffer and transit of its core, its planes and, in a pass with stationary weights, its
slots (R98, R361). -/
def arrayDamage (a : Nat) (slots : Bool) (d : Damage) : Bool :=
  match d.cls with
  | 3 => d.unit == a / 4
  | 4 => d.unit == a
  | 5 => slots && d.unit == a
  | 6 => d.unit == a / 4
  | _ => false

/-- The part a fault of an array aborts: its lane's in a PAIR, else its core's (R131, R196). -/
def arrayPart (c : Cmd) (i : Item) : Nat := if dOp c.desc = 5 then 8 + i.lane else i.array / 4

/-- A command meets the damaged words of a set: the part they belong to fails (R196, R365). -/
def meetArray (s : State) (c : Cmd) (i : Item) (p : Damage → Bool) : State :=
  let s1 := (s.ras.damage.filter (fun d => !d.back && p d)).foldl (fun s d =>
    let r := takeError s d (some c)
    if r.2 then failPart r.1 c (if d.cls = 4 || d.cls = 5 then arrayPart c i else damageCore d) stFault else r.1) s
  if lostFails s1 c.desc then failPart s1 c 7 stFault else s1

/-- Whether a tile's part has met no error (R112, R131, R196). -/
def itemAlive (c : Cmd) (i : Item) : Bool := !(c.errs.any (fun e => e.1 == i.array / 4 || e.1 == 7 || e.1 == 8 + i.lane))

/-- Whether the tile would consume the trapped row: every tile but the other windows of PLAIN and DX does; and every tile of a command that a trap
without a row ends (R69, R188). -/
def itemTraps (c : Cmd) (i : Item) : Bool :=
  match c.trapRow with
  | none => false
  | some t => t.1 == noRow || !(i.kind == .stat && dOp c.desc != 5 && i.r < t.1 / 256)

/-- Whether a tile must not go on. -/
def mustStop (c : Cmd) (i : Item) : Bool := itemTraps c i || !(itemAlive c i)

/-- Whether an earlier unit of the tile's strip ends without its carries (R131). -/
def chainBroken (c : Cmd) (i : Item) : Bool :=
  i.kind == .stat && dOp c.desc == 5 &&
    c.items.any (fun x => x.kind == .stat && x.r == i.r && x.c < i.c && x.st != .done && mustStop c x)

/-- The Sieve skipped the tile (R219). -/
def itemSkipped (c : Cmd) (i : Item) : Bool :=
  let cols := if i.kind == .dw then pJ c.desc else pI c.desc
  tget SieveMark.compute c.sieve (i.r * cols + i.c) == .skipped

/-- Whether the Sieve that guards the command has decided (R216, R219). -/
def guardReady (s : State) (c : Cmd) : Bool :=
  match c.guard with
  | none => true
  | some k => match findCmd s k with
    | some g => g.phase == .ended || g.phase == .recorded
    | none => true

/-- Whether started array work runs: in RAMP_UP, ACTIVE and DRAIN (R343). -/
def arrayPower (s : State) : Bool :=
  s.power.state == .rampUp || s.power.state == .active || s.power.state == .drain

/-! ### Results at the edge and the advisor's tap (R76, R92) -/

/-- The store's format (R44, R301); SR draws at point 1 (R71). -/
def storeFmtOf (s : State) (c : Cmd) : StoreFmt :=
  let l := layoutAt s c.outRec
  let b := dNum c.desc 0x68 1
  ⟨(fmtOf l.code).getD .fp32, l.mx, (rndOf (bitsOf b 0 2)).getD .rne, bitOf b 2, ⟨c.lat.seed, 1, dTid c.desc, dStep c.desc⟩⟩

/-- The sum of output element (r, o) that has left the edge. -/
def outSum (c : Cmd) (r o : Nat) : Option (BitVec 48) := (tfind c.aux (auxKey r o)).map (BitVec.ofNat 48)
def outVal (c : Cmd) (r o : Nat) : Option Val := (outSum c r o).map af48Val

/-- Whether it has been stored. -/
def outStored (c : Cmd) (r o : Nat) : Bool := (tfind c.aux (auxKey r o)).any (2 ^ 48 ≤ ·)

/-- The tile an output element comes from: of a PAIR the last unit of its strip. -/
def outItem (c : Cmd) (r o : Nat) : Option Item :=
  c.items.find? (fun x => x.kind == .stat &&
    (if dOp c.desc == 5 then x.r == o / 256 && x.c + 1 == pJ c.desc else x.r == r / 256 && x.c == o / 256))

/-- The core an element's edge belongs to. -/
def outCore (c : Cmd) (r o : Nat) : Nat := ((outItem c r o).map (fun x => x.array / 4)).getD 0

/-- The bin of an absolute exponent (R82). -/
def absBin (e : Int) : Nat := if e < -48 then 0 else if 15 < e then 65 else (e + 49).toNat

/-- Count a canonical sum in the absolute histogram at the edge tap (R76). -/
def tapAbs (a : AdvCounts) (v : Val) : AdvCounts :=
  if v.nonFinite then { a with nonfinite := satAdd 32 a.nonfinite 1 }
  else match floorLog2 v with
    | none => { a with zero := satAdd 32 a.zero 1 }
    | some e => { a with abs := tmod 0 a.abs (absBin e) (fun n => satAdd 32 n 1) }

/-- Count a block whose sums have all left in the relative histogram (R76). -/
def tapRel (a : AdvCounts) (vs : List Val) : AdvCounts :=
  if vs.any Val.nonFinite then a
  else
    let es := vs.filterMap floorLog2
    let m := es.foldl max (es.head?.getD 0)
    es.foldl (fun a e => { a with rel := tmod 0 a.rel (min 33 (m - e).toNat) (fun n => satAdd 32 n 1) }) a

/-- A sum leaves at the edge: the tap counts it, and its block once it is whole. -/
def leaveOne (s : State) (c : Cmd) (x : Nat × Nat × BitVec 48) : Cmd :=
  let c1 := { c with aux := tins c.aux (auxKey x.1 x.2.1) x.2.2.toNat }
  if dAdvObs c.desc then
    let vs := (blockOf (layoutAt s c.outRec) x.1 x.2.1).map (fun p => outVal c1 p.1 p.2)
    let a := tapAbs c1.adv (af48Val x.2.2)
    { c1 with adv := if vs.all Option.isSome then tapRel a (vs.filterMap id) else a }
  else c1

/-- Sums leave at the edge. -/
def leaveEdge (s : State) (c : Cmd) (xs : List (Nat × Nat × BitVec 48)) : Cmd := xs.foldl (leaveOne s) c

/-! ### Stores (R49, R189 to R192) -/

/-- Whether an element that has left can be written: alone, with its MX block, or with the 64 rows of its block of a transposed output (R189). -/
def storable (s : State) (c : Cmd) (r o : Nat) : Bool :=
  let l := layoutAt s c.outRec
  if l.mx then (blockOf l r o).all (fun p => (outSum c p.1 p.2).isSome)
  else if axisRow l 0 then
    (List.range (min 64 (pM c.desc - r / 64 * 64))).all (fun i => (outSum c (r / 64 * 64 + i) o).isSome)
  else (outSum c r o).isSome

/-- The core whose loader writes an element: in ordered mode the lowest with a lane of the command (R191). -/
def storeCore (s : State) (c : Cmd) (r o : Nat) : Nat :=
  let l := layoutAt s c.outRec
  if !(disjointLayout l) then c.items.foldl (fun m i => min m (i.array / 4)) 5
  else if l.mx then (match (blockOf l r o).head? with
    | some p => outCore c p.1 p.2
    | none => outCore c r o)
  else outCore c r o

/-- The elements of the output in ascending logical index that have left and are not stored. -/
def outWaiting (c : Cmd) : List (Nat × Nat) :=
  (c.aux.filter (fun p => p.2 < 2 ^ 48)).map (fun p => (p.1 / 2 ^ 24, p.1 % 2 ^ 24))

/-- Whether an element that has not left yet still can: its tile goes on, and in a PAIR its strip's chain is whole or past the break. -/
def willLeave (s : State) (c : Cmd) (r o : Nat) : Bool :=
  match outItem c r o with
  | none => false
  | some i =>
    let past := fun (kb : Nat) (strip : Nat) => strip == i.r &&
      c.items.all (fun x => !(x.kind == .stat && x.r == i.r && kb ≤ x.c && x.st != .done && mustStop c x))
    i.st != .done && i.st != .summed && !(mustStop c i) && (!(chainBroken c i) ||
      s.hod.any (fun t => t.key == c.key && t.window == r / 256 && past t.kb t.strip) ||
      s.arrays.any (fun p => [p.2.planeA, p.2.planeB].any (fun x => x.state != .free && x.key == c.key && x.resume.1 == r / 256 &&
        ((c.items[x.item]?).any (fun y => y.kind == .stat && past y.c y.r)))))

/-- The bytes of an element's packing group, and the group's own name: writes of one group are one write (R192). -/
def packGroup (l : Layout) (r o : Nat) : (Nat × Nat) × List Nat :=
  let idx := storedIdx l r o
  let a := elemAddr l r o
  ((a.1, ceilDiv (a.2 + layoutBits l) 8), (idx[0]?).getD 0 / groupElems (layoutBits l) :: idx.drop 1)

/-- Whether a write of these bytes covers a byte of an earlier write that is not acknowledged. -/
def writeCollides (s : State) (key : Nat) (b : Nat × Nat) : Bool :=
  (openReqs s).any (fun q => (match q.why with
    | .cmdWrite k _ => k == key
    | _ => false) && q.strobes.any (fun x => x.1 < b.1 + b.2 && b.1 < x.1 + x.2))

/-- The elements a store in ordered mode writes next: in ascending logical index up to the first that has still to leave, is not storable yet, or
covers a byte of an earlier write not yet acknowledged (R191). -/
def orderedRun (s : State) (c : Cmd) : List (Nat × Nat) :=
  let l := layoutAt s c.outRec
  let cols := pNExt c.desc
  ((List.range (pM c.desc * cols)).foldl (fun (a : Bool × List ((Nat × Nat) × List Nat) × List (Nat × Nat)) n =>
    let r := n / cols
    let o := n % cols
    if a.1 || outStored c r o then a
    else if (outSum c r o).isNone && !(willLeave s c r o) then a
    else
      let g := packGroup l r o
      if storable s c r o && !(writeCollides s c.key g.1) &&
          a.2.1.all (fun x => x.2 == g.2 || x.1.1 + x.1.2 ≤ g.1.1 || g.1.1 + g.1.2 ≤ x.1.1) then
        (false, g :: a.2.1, a.2.2 ++ [(r, o)])
      else (true, a.2.1, a.2.2)) (false, [], [])).2.2

/-- What a store writes next, all of it by one loader: the lowest-numbered that has something to write. -/
def storeRun (s : State) (c : Cmd) : List (Nat × Nat) :=
  if disjointLayout (layoutAt s c.outRec) then
    let l := (outWaiting c).filter (fun p => storable s c p.1 p.2)
    let core := l.foldl (fun m p => min m (storeCore s c p.1 p.2)) 7
    l.filter (fun p => storeCore s c p.1 p.2 == core)
  else orderedRun s c

/-- Store the elements: the bytes, POISON for a NaN or Inf (R66), SAT_EVENTS, the loader's counters, ORDERED once for a command (R197). -/
def storeElems (s : State) (c : Cmd) (xs : List (Nat × Nat)) : State × Cmd :=
  let l := layoutAt s c.outRec
  let core := (xs.head?.map (fun p => storeCore s c p.1 p.2)).getD 7
  let s1 := xs.foldl (fun s p => storeOutElem l (storeFmtOf s c) (pNExt c.desc) (fun r o => corSatEventsCount (outCore c r o)) (outVal c) s p.1 p.2) s
  let s2 := bump s1 (ofLoader trwWrBytesCount core) ((s1.wbuf.map (·.1)).eraseDups.length)
  let s3 := bump s2 (ofLoader trwXposeBytesCount core) (xposeBytes l xs.length 1)
  (if disjointLayout l || c.asked != 0 then s3 else bump s3 trwOrderedCount 1,
    { c with
      asked := 1
      aux := xs.foldl (fun a p => tmod 0 a (auxKey p.1 p.2) (· + 2 ^ 48)) c.aux
      flags := c.flags ||| flagIf (xs.any (fun p => (outVal c p.1 p.2).any Val.nonFinite)) flPoison })

/-! ### The end of a product command -/

/-- The end flags: SURROGATE (R135), SIEVED (R216), HANDOFF (R214). -/
def productFlags (c : Cmd) (hoff : Bool) : Nat :=
  flagIf (derivSurrogate (pDfunc c.desc) (pDsrc c.desc)) flSurrogate ||| flagIf c.guard.isSome flSieved |||
    flagIf hoff flHandoff

/-- The participation mask of R214. -/
def hmaskBytes (c : Cmd) : List Byte :=
  (List.range (ceilDiv (pM c.desc) 8)).flatMap (fun b =>
    natLE ((List.range 8).foldl (fun a i =>
      if 8 * b + i < pM c.desc && rowPart c (8 * b + i) then a + 2 ^ i else a) 0) 1)

/-- The sub-threshold tiles that ran on the arrays: those of strips with a finished tile (R213). -/
def blockedTiles (s : State) (c : Cmd) : Nat :=
  if c.hoff || !(pStationary c.desc) then 0
  else ((thinTiles s c).filter (fun p => c.items.any (fun i => i.kind == .stat && i.c == p.2 && i.st == .done && !(itemSkipped c i)))).length

/-- End a product: a trap or an error tears the groups it writes; otherwise hand-off records are queued and a torn
group whose stamp this is opens again (R69, R152, R196, R214, R322). -/
def finishProduct (s : State) (c : Cmd) : State :=
  let late := c.status
  let v := allView s c
  let s := bump (putCmd s c) sivHoffCountBlocked (blockedTiles v c)
  let s := { s with dyCache := s.dyCache.filter (fun p => p.2.1 != c.key + 1), staged := s.staged.filter (fun e => e.key != c.key) }
  match c.trapRow with
  | some t =>
    let st := max (max stFpTrap late) (worstErr c)
    endCmd (tearWritten s c) c.key st (productFlags c false) (if st = stFpTrap then t.2 else 0)
  | none =>
    if !c.errs.isEmpty then
      endCmd (tearWritten s c) c.key (max late (worstErr c)) (productFlags c false) 0
    else
      let hs := if c.hoff then handoffList v c (genOf c (pGroup c.desc)) else []
      let s := if hs.isEmpty then s else s.store (dNum c.desc 0x70 8) (hmaskBytes c)
      let s := { s with handoffs := s.handoffs ++ hs }
      let s := (writtenGroups c.desc).foldl (fun s g => mendGroup s g (dStamp c.desc) late) s
      endCmd s c.key late (productFlags c (!hs.isEmpty)) 0

/-- Whether no array, plane, hod tile or saved image holds work of the command. -/
def noneInFlight (s : State) (key : Nat) : Bool :=
  s.arrays.all (fun p => p.2.passes.all (fun x => x.parts.all (fun y => y.key != key)) && p.2.groups.all (fun x => x.key != key) &&
    [p.2.planeA, p.2.planeB].all (fun x => x.state == .free || x.parts.all (fun y => y.key != key))) &&
    s.hod.all (fun t => t.key != key) && s.images.all (fun x => x.key != key)

/-! ### LOADW (R303) -/

/-- The cores that hold a lane. -/
def laneCores (s : State) : List Nat := ((lanes s true).map (·.core)).eraseDups

/-- What LOADW reads one after the other: a record's array with its scales, or a tile table's header, entries, tile headers and tile bodies. -/
def loadwRuns (s : State) (c : Cmd) (n : Nat) : List (Nat × Nat) :=
  let w := dNum c.desc 0x20 8
  if pSform c.desc then
    let t := tabAt s w
    let idx := (List.range t.kb).flatMap (fun k => (List.range t.ob).map (fun o => (k, o)))
    match n with
    | 0 => [(w, 64)]
    | 1 => [(w + 64, 8 * t.kb * t.ob)]
    | 2 => idx.map (fun p => ((tabEntry s t p.1 p.2).1, 64))
    | _ => (idx.filter (fun p => tileOk s t p.1 p.2)).map (fun p =>
        let e := tabEntry s t p.1 p.2
        (e.1 + 64, payloadBytes t.code t.mx e.2 (tileKLines t p.1) (tileOLines t p.2) (popBits (rowMap s e.1) 256)))
  else
    let l := layoutAt s w
    operandRuns s l 0 (axisExtent l true) 0 (axisExtent l false)

/-- How many reads LOADW makes one after the other. -/
def loadwReads (c : Cmd) : Nat := if pSform c.desc then 4 else 1

/-- What a core has read for LOADW stays as its copy, in place of an older one, when there is room (R303). -/
def keepCopy (c : Cmd) (s : State) (core : Nat) : State :=
  let w := dNum c.desc 0x20 8
  let cells := (s.staged.filter (fun e => e.key == c.key && e.core == core)).flatMap (·.cells)
  let s1 := dropStaged s (fun e => e.core == core && (e.key == c.key || (e.key == copyKey && e.part == w)))
  if stageUsed s1 core + cells.length ≤ stageSpace s1 core then
    { s1 with staged := s1.staged ++ [⟨copyKey, core, w, cells.length, cells⟩] }
  else s1

/-- LOADW reads the stationary operand into the stage buffer of every core that holds a lane; a later product that names the same record address
takes its tiles from there (R303). -/
def execLoadw (r : CmdRef) (s : State) : Host.Outcome State Fault Refusal :=
  runUnit s (refKey r) (isOp 0x01) (fun s c =>
    let n := c.asked
    if n < loadwReads c then
      (laneCores s).foldl (fun s core =>
        let rs := loadwRuns (readView s c.key core) c n
        askReads (bump s (ofLoader trwRdBytesCount core) (rs.foldl (fun n r => n + r.2) 0)) c.key core n rs)
        (modCmd s c.key (fun c => { c with asked := n + 1 }))
    else
      let w := dNum c.desc 0x20 8
      let s1 := (laneCores s).foldl (keepCopy c) s
      endCmd { s1 with loadw := w :: s1.loadw.filter (· != w) } c.key stOK 0 0)

end Sys2Proof.Machine
end

