-- ==== Sys2Proof/Machine/Array.lean ====
section
/-! DEFINITION. The arrays step by step (04 R85 to R103, R112 to R114, 05 R122, R123, R127 to R129): lanes and passes, slot loads, row groups, patches,
and the draining of preempted passes. Every step is a move of the engine: the state after it, or none where nothing can move. -/

namespace Sys2Proof.Machine

/-- A row of the table that is a move of the engine: the move where it can be made. -/
def answer (s : State) (m : Option State) : Host.Outcome State Fault Refusal :=
  match m with
  | some t => .next (settle s t)
  | none => .next s

/-! ### Lanes and passes -/

/-- The lane of an array. -/
def laneOf (s : State) (a : Nat) : Option Lane := (lanes s true).find? (fun l => l.d == a || l.w == a)

/-- The arrays of a lane. -/
def laneArrays (l : Lane) : List Nat := if l.single then [l.d] else [l.d, l.w]

/-- Whether the command may work on arrays now. -/
def arraysMay (s : State) (c : Cmd) : Bool :=
  unitsRun s && isProduct c.desc && c.phase == .started && arrayPower s && guardReady s c && !(heldBack s c)

def planeAt (ar : ArraySt) (b : Bool) : Plane := if b then ar.planeB else ar.planeA
def setPlane (ar : ArraySt) (b : Bool) (x : Plane) : ArraySt := if b then { ar with planeB := x } else { ar with planeA := x }

/-- The plane of the array that satisfies a test, plane A first. -/
def findPlane (ar : ArraySt) (f : Plane → Bool) : Option Bool :=
  if f ar.planeA then some false else if f ar.planeB then some true else none

/-- k and row groups of an item (R87). -/
def itemK (s : State) (c : Cmd) (i : Item) : Nat :=
  match i.kind with
  | .stat => statK s c
  | .dw => outerK s c (xLay s c.desc)
  | .db => outerK s c (hLay s c.desc)

/-- The strip of outputs of a stationary item. -/
def itemStrip (c : Cmd) (i : Item) : Nat := if dOp c.desc = 5 then i.r else i.c

/-- Columns of the plane an item uses, and its rows in outer-product mode. -/
def planeCols (c : Cmd) (i : Item) : Nat :=
  match i.kind with
  | .stat => min 256 (pNExt c.desc - 256 * itemStrip c i)
  | _ => min 256 (pKExt c.desc - 256 * i.c)
def planeRows (c : Cmd) (i : Item) : Nat :=
  match i.kind with
  | .db => pRank c.desc
  | _ => min 256 (pNExt c.desc - 256 * i.r)

/-- Whether a pass takes rows of the command. -/
def Pass.has (p : Pass) (key : Nat) : Bool := p.parts.any (fun x => x.key == key)

/-- Rows of a stage: of the commands of a packed window together, else of the window. -/
def stageRows (c : Cmd) (p : Pass) (st : Stage) : Nat :=
  if p.parts.length ≤ 1 then windowRows c st.1 else p.parts.foldl (fun n x => n + x.rows) 0

/-- Row groups of a stage (R87). -/
def rowGroups (c : Cmd) (p : Pass) (st : Stage) : Nat := ceilDiv (stageRows c p st) p.k

/-- The command and the row at place `t` of a stage's rows. -/
def rowAt (p : Pass) (st : Stage) (t : Nat) : Nat × Nat :=
  if p.parts.length ≤ 1 then (p.key, 256 * st.1 + t)
  else match p.parts.find? (fun x => x.off ≤ t && t < x.off + x.rows) with
    | some x => (x.key, t - x.off)
    | none => (p.key, t)

/-- The places of row group `g` of a stage. -/
def groupPlaces (c : Cmd) (p : Pass) (st : Stage) (g : Nat) : List Nat :=
  (List.range (min p.k (stageRows c p st - p.k * g))).map (p.k * g + ·)

/-- A pass of an array with its command and item. -/
def passCmd (s : State) (p : Pass) : Option (Cmd × Item) :=
  match findCmd s p.key with
  | none => none
  | some c => (c.items[p.item]?).map (fun i => (c, i))

/-- The pass an array issues next: the earliest with stages left; of a single array's two the one at the earlier window, its D half first (R140). -/
def issuePass (ar : ArraySt) : Option Pass :=
  match ar.passes.filter (fun p => !p.stages.isEmpty) with
  | [] => none
  | p :: rest => some (rest.foldl (fun m q => if q.key == m.key && (q.stages.head?.map (·.1)).getD 0 < (m.stages.head?.map (·.1)).getD 0 then q else m) p)

/-- Change a pass of an array. -/
def modPass (ar : ArraySt) (key item : Nat) (f : Pass → Pass) : ArraySt :=
  { ar with passes := ar.passes.map (fun p => if p.key == key && p.item == item then f p else p) }

/-! ### Dealing passes (R122, R123, R128, R138, R140) -/

/-- The other tile of the lane's group, dealt together with tile `k`: the D and W work of a unit, two neighbouring tiles of a DX or DW (R123, R128). -/
def jointOf (s : State) (c : Cmd) (k : Nat) (i : Item) : Option (Nat × Item) :=
  let its := c.items.mapIdx (fun n x => (n, x))
  if dOp c.desc = 5 then
    its.find? (fun x => x.2.lane == i.lane && x.2.c == i.c && x.2.r == i.r && ((x.2.kind == .stat) != (i.kind == .stat)))
  else match (lanes s (pSingles c.desc))[i.lane]? with
    | none => none
    | some l =>
      if l.single then none
      else its.find? (fun x => x.2.lane == i.lane && x.2.kind == i.kind && (if i.kind == .stat then x.2.r == i.r else x.2.c == i.c) &&
        ((i.array == l.d && x.1 == k + 1 && x.2.array == l.w) || (i.array == l.w && x.1 + 1 == k && x.2.array == l.d)))

/-- Whether a tile is queued for the make-up pass and other tiles are not finished (R219). -/
def makeupWaits (c : Cmd) (i : Item) : Bool :=
  let mark := fun (x : Item) => tget SieveMark.compute c.sieve (x.r * (if x.kind == .dw then pJ c.desc else pI c.desc) + x.c)
  mark i == .makeup && c.items.any (fun x => mark x != .makeup && x.st != .done && !(mustStop c x))

/-- Whether a tile can begin. -/
def startable (c : Cmd) (i : Item) : Bool := i.st == .todo && !(mustStop c i) && !(itemSkipped c i) && !(makeupWaits c i)

/-- Whether a saved command comes first on the array: it resumes before commands of its own or a higher class (R315). -/
def savedFirst (s : State) (a : Nat) (c : Cmd) : Bool :=
  s.cmds.any (fun v => v.saved && v.key != c.key && classOf s v.q ≤ classOf s c.q && v.items.any (fun i => i.array == a))

/-- Whether a saved command has left the arrays but for planes on their way to the save area, with no carry still to be relayed (R101, R129). -/
def offLanes (s : State) (v : Cmd) : Bool :=
  s.arrays.all (fun p => p.2.passes.all (fun x => !(x.has v.key)) && p.2.groups.all (fun x => x.key != v.key) &&
    [p.2.planeA, p.2.planeB].all (fun x => x.state == .free || x.state == .folding || x.state == .saving || x.key != v.key))

/-- Whether an array is clear for a new pass of the command: everything on it is issued, and a command saved from it has left its lanes. -/
def arrayClear (s : State) (a : Nat) (c : Cmd) : Bool :=
  let ar := arrayOf s a
  ar.on && ar.passes.all (fun p => p.stages.isEmpty) && !(savedFirst s a c) &&
    s.cmds.all (fun v => !v.saved || v.key == c.key || !(v.items.any (fun i => i.array == a)) || offLanes s v)

/-- Whether array `a` is a W array that a frozen PAIR has released: it holds no adapter tile from here on (R138). -/
def releasedW (s : State) (a : Nat) : Bool :=
  s.cmds.any (fun c => dOp c.desc == 5 && pFrozen c.desc && c.phase == .started && !c.saved &&
    (lanes s (pSingles c.desc)).any (fun l => l.w == a && !l.single) &&
    c.items.all (fun i => !(i.kind == .db && i.array == a && i.st != .done)))

/-- The arrays of the lane array `a` belongs to. -/
def lanePeers (s : State) (a : Nat) : List Nat := ((laneOf s a).map laneArrays).getD [a]

/-- Whether a tile stands on the lane it was dealt to, not on a released W array. -/
def onLane (s : State) (c : Cmd) (i : Item) : Bool :=
  ((lanes s (pSingles c.desc))[i.lane]?).any (fun l => (laneArrays l).contains i.array)

/-- Whether a command has begun work on lanes of its own, its predictor's included (R217). -/
def lanesBegun (s : State) (c : Cmd) : Bool :=
  isProduct c.desc && c.phase == .started && !c.saved &&
    (c.items.any (fun i => i.st != .todo && onLane s c i) || (0 < c.fetched && !(guardReady s c)))

/-- Whether a command holds the lane of array `a`: it has begun, and has work left there (R315). -/
def holdsLane (s : State) (c : Cmd) (a : Nat) : Bool :=
  let js := lanePeers s a
  js.any (fun j => (arrayOf s j).passes.any (fun p => p.has c.key && !p.stages.isEmpty)) ||
    (lanesBegun s c && c.items.any (fun i => js.contains i.array && i.st == .todo && !(mustStop c i) && !(itemSkipped c i)))

/-- Whether no other command holds a lane that an unbegun command has tiles for: a command takes its lanes together (R315; DESIGN CHOICE, log 80). -/
def lanesFree (s : State) (c : Cmd) : Bool :=
  c.items.all (fun i => i.st != .todo || s.cmds.all (fun e => e.key == c.key || !(holdsLane s e i.array)))

/-- The command whose tiles array `a` takes next: the one that holds its lane, else the first in arbitration order that is ready with a tile for it,
once its lanes are free (R311). -/
def arrayCmd? (s : State) (a : Nat) : Option Cmd :=
  let cs := (arbitration s).filter (fun c => arraysMay s c && !c.saved && c.items.any (fun i => i.array == a && startable c i))
  match cs.find? (fun c => lanesBegun s c) with
  | some c => if arrayClear s a c then some c else none
  | none => match cs.head? with
    | some c => if lanesFree s c && arrayClear s a c then some c else none
    | none => none

/-- The next tile for array `a`; a released W array takes tiles of DW commands with DSRC = 0 of other queues (R138). -/
def nextItem (s : State) (a : Nat) : Option (Cmd × Nat × Item) :=
  let pick := fun (c : Cmd) (f : Item → Bool) =>
    ((c.items.mapIdx (fun k i => (k, i))).find? (fun x => startable c x.2 && f x.2)).map (fun x => (c, x.1, x.2))
  match (arrayCmd? s a).bind (fun c => pick c (fun i => i.array == a)) with
  | some x => some x
  | none =>
    if releasedW s a then
      (arbitration s).findSome? (fun c =>
        if arraysMay s c && !c.saved && arrayClear s a c && dOp c.desc == 4 && pDsrc c.desc == 0 then pick c (fun i => i.array != a) else none)
    else none

/-- The part of a command's rows in a plane of tile `k`, from row `off` on (R114). -/
def partOf (s : State) (c : Cmd) (k : Nat) (i : Item) (off : Nat) : PlanePart :=
  let f := itemFold s c.desc i
  let folds := i.kind != .stat || pToGroup c.desc
  let rows := if i.kind != .stat then f.2.2.1 else if dOp c.desc = 5 then 256 else windowRows c i.r
  ⟨c.key, k, off, rows, dStamp c.desc, if folds then some (tileKey f.1 f.2.1) else none,
    if i.kind == .stat && !(pToGroup c.desc) then i.r * pI c.desc + i.c else f.2.1⟩

/-- The parts of a pass of tile `k`: the command's, or those of the commands that share its window (R113). -/
def partsOf (s : State) (c : Cmd) (k : Nat) : List PlanePart :=
  (mates s c).filterMap (fun m => (m.items[k]?).bind (fun i => if mustStop m i then none else some (partOf s m k i m.window)))

/-- The blocks with the table and the headers of an output tile's K-blocks (R203). -/
def headBlks (c : Cmd) (strips : List Nat) : List Blk :=
  if pSform c.desc then
    ⟨5, 0, 0, 0⟩ :: strips.flatMap (fun i => (List.range (pJ c.desc)).map (fun kb => ⟨6, 0, kb, i⟩))
  else []

/-- The stages of an item that runs together with the strips given (R92, R123, R89, R211), as its core knows them. -/
def stagesOf (s : State) (c : Cmd) (i : Item) (strips : List Nat) : List Stage :=
  match i.kind with
  | .stat =>
    if dOp c.desc = 5 then (List.range (pV c.desc)).map (fun v => (v, [i.c]))
    else
      let v := coreView s c (i.array / 4)
      (kStages v c (statK v c) strips).map (fun kbs => (i.r, kbs))
  | _ => (List.range (pV c.desc)).map (fun v => (v, []))

/-- The preloads bound to the parts of a pass, as entries of its plane, and the state without them (R58, R167). -/
def takePreloads (s : State) (ps : List PlanePart) : State × List (Nat × BitVec 48) :=
  ps.foldl (fun a x =>
    match x.fold, findCmd a.1 x.key with
    | some t, some c => match preloadFor a.1 c (t / 2 ^ 14) (t % 2 ^ 14) with
      | some pl => ({ a.1 with preloads := a.1.preloads.filter (· != pl) }, a.2 ++ pl.entries.map (fun e => (e.1 + 256 * x.off, e.2)))
      | none => a
    | _, _ => a) (s, [])

/-- Whether a part of a pass has a preload. -/
def hasPreload (s : State) (ps : List PlanePart) : Bool :=
  ps.any (fun x => match x.fold, findCmd s x.key with
    | some t, some c => (preloadFor s c (t / 2 ^ 14) (t % 2 ^ 14)).isSome
    | _, _ => false)

/-- Set tile `k` of every command of a pass. -/
def setItems (s : State) (ps : List PlanePart) (st : ItemState) : State :=
  ps.foldl (fun s x => modCmd s x.key (fun c => setItem c x.item st)) s

/-- The plane a new pass takes: the standby plane, which it waits for while that moves its contents out (R100). -/
def freePlane (ar : ArraySt) : Option Bool :=
  let sb := !ar.lastB
  if (planeAt ar sb).state == .free then some sb
  else if (planeAt ar sb).state == .folding || (planeAt ar sb).state == .saving then none
  else if (planeAt ar ar.lastB).state == .free then some ar.lastB else none

/-- Begin the pass of tile `k` on its array; a bound preload goes into a FREE plane as LOADING (R100, R167). -/
def beginOne (s : State) (c : Cmd) (k : Nat) (i : Item) (strips : List Nat) (kk : Nat) : Option State :=
  let ar := arrayOf s i.array
  let ps := partsOf s c k
  let p : Pass := ⟨c.key, k, ps, stagesOf s c i strips, 0, kk⟩
  let go := fun (s : State) (ar : ArraySt) => setArray (setItems s ps .active) i.array { ar with passes := ar.passes ++ [p] }
  if hasPreload s ps then
    match freePlane ar with
    | none => none
    | some b =>
      let x := takePreloads s ps
      some (go x.1 (setPlane ar b { planeFree with state := .loading, entries := x.2, key := c.key, item := k, parts := ps, resume := (i.r, 0, 0) }))
  else some (go s ar)

/-- A dW tile that already holds the command's stamp is not run (R160). -/
def refoldItem (s : State) (c : Cmd) (i : Item) : Bool :=
  let f := itemFold s c.desc i
  i.kind != .stat && foldCheck s f.1 f.2.1 (genOf c f.1) (dStamp c.desc) == .refold && (divertFor s c f.1 f.2.1).isNone

def skipRefold (s : State) (c : Cmd) (k : Nat) : State :=
  modCmd (bump s scrRefoldsCount 1) c.key (fun c => setItem { c with flags := c.flags ||| flRefold } k .done)

/-- A pass that meets a failed array is a fault of its part (R112). -/
def meetFailure (s : State) (c : Cmd) (i : Item) : State :=
  if failedArray s i.array && itemAlive c i then failPart s c (arrayPart c i) stFault else s

/-- Begin the next pass of an array, with that of the lane's other tile of the same group (R123, R128). -/
def beginLane (s : State) (a : Nat) : Option State :=
  match nextItem s a with
  | none => none
  | some (c, k, i0) =>
    let i := { i0 with array := a }
    let s := if i0.array == a then s else modCmd s c.key (fun c => { c with items := c.items.set k i })
    let mate := (jointOf s c k i0).filter (fun x => i0.array == a && startable c x.2)
    let core := a / 4
    let strips := if i.kind == .stat && dOp c.desc != 5 then
        (itemStrip c i :: mate.toList.map (fun x => itemStrip c x.2)) else []
    if failedArray s a then some (meetFailure s c i)
    else if refoldItem s c i then some (skipRefold s c k)
    else if i.kind == .stat && !((headBlks c strips).all (blkHeld s c core)) then none
    else match mate with
      | none => beginOne s c k i strips (itemK s c i)
      | some (k', j) =>
        if failedArray s j.array then some (meetFailure s c j)
        else if refoldItem s c j then some (skipRefold s c k')
        else if !(arrayClear s j.array c) then none
        else
          let kk := itemK s c (if i.kind == .stat then j else i)
          (beginOne s c k i strips kk).bind (fun s => beginOne s c k' j strips kk)

/-! ### Slots (R85, R86, R95 to R98) -/

def slotAt (ar : ArraySt) (b : Bool) : WSlot := if b then ar.slot1 else ar.slot0
def setSlotW (ar : ArraySt) (b : Bool) (x : WSlot) : ArraySt := if b then { ar with slot1 := x } else { ar with slot0 := x }

/-- Whether the stationary tile is read plain: K is the row of the stored tile (R90). -/
def plainRead (s : State) (c : Cmd) : Bool :=
  pSform c.desc || ((dOp c.desc == 2) == !(axisRow (layoutAt s (pW c.desc)) 0))

/-- The 16 slot bits of a cell (R86): scale over element for MX, the element alone else; the half of an FP32 element. -/
def slotBits (f : ElemFmt) (hi : Bool) (scale raw : Nat) : Nat :=
  if f.fmt = .fp32 then (if hi then raw / 65536 else raw % 65536)
  else if f.mx then scale % 256 * 256 + raw % 256 else raw % 65536

/-- The cells of a traversal's tiles by cell row * 256 + cell column (R90, R208, R210), with `g` of the stored cell; an empty cell is left out. -/
def slotCells (s : State) (c : Cmd) (kbs : List Nat) (strip : Nat) (g : Nat × Nat × Nat × Nat → Nat) : List (Nat × Nat) :=
  sortBy (·.1) ((List.range (min 256 (pNExt c.desc - 256 * strip))).flatMap (fun o =>
    (((stageRaw s c (statK s c) kbs (256 * strip + o)).mapIdx (fun q x => (q, x))).filterMap (fun x =>
      x.2.head?.map (fun y => (if plainRead s c then x.1 * 256 + o else o * 256 + x.1, g y))))))

/-- A loaded slot: `hi` for the half of an FP32 tile that holds bits [31:16]. -/
def loadedSlot (s : State) (c : Cmd) (kbs : List Nat) (strip : Nat) (hi : Bool) : WSlot :=
  let f := statFmt s c
  ⟨true, if pSform c.desc then (tabAt s (pW c.desc)).code else (layoutAt s (pW c.desc)).code, f.mx, f.texp,
    slotCells s c kbs strip (fun y => slotBits f hi y.2.1 y.2.2.1),
    if kbs.any (fun kb => halfTile s c kb strip) then slotCells s c kbs strip (fun y => y.2.2.2) else [], c.key, strip, kbs⟩

/-- Whether a slot holds the tiles of a stage of a command. -/
def WSlot.holds (x : WSlot) (key strip : Nat) (kbs : List Nat) : Bool := x.full && x.key == key && x.strip == strip && x.kbs == kbs

/-- The slot that holds them. -/
def slotOfStage (ar : ArraySt) (key strip : Nat) (kbs : List Nat) : Option Bool :=
  if (slotAt ar ar.slotF).holds key strip kbs then some ar.slotF
  else if (slotAt ar !ar.slotF).holds key strip kbs then some (!ar.slotF) else none

/-- The stationary stages an array is to issue next, with command, strip and K-blocks. -/
def nextTiles (s : State) (ar : ArraySt) : List (Nat × Nat × List Nat) :=
  (ar.passes.flatMap (fun p => match passCmd s p with
    | some (c, i) => if i.kind == .stat then p.stages.map (fun st => (c.key, itemStrip c i, st.2)) else []
    | none => [])).eraseDups.take 2

/-- Whether a slot may be reloaded: no row group that names it has still to read it, and it holds no tile the next stages need (R96). -/
def slotIdle (s : State) (ar : ArraySt) (b : Bool) : Bool :=
  ar.groups.all (fun g => g.slotB != b || g.stage.2.isEmpty) &&
    (nextTiles s ar).all (fun t => !((slotAt ar b).holds t.1 t.2.1 t.2.2))

/-- Whether a core holds the tiles of a stage (R95). -/
def tilesHeld (s : State) (c : Cmd) (core strip : Nat) (kbs : List Nat) : Bool :=
  (headBlks c [strip] ++ kbs.map (fun kb => (⟨7, 0, kb, strip⟩ : Blk))).all (blkHeld s c core)

/-- The checks and the screen of the tiles of a traversal as they load, the form counters (R188, R203, R221). -/
def loadTiles (s : State) (c : Cmd) (i : Item) (kbs : List Nat) : State :=
  let core := i.array / 4
  let strip := itemStrip c i
  let v := coreView s c core
  kbs.foldl (fun s kb =>
    if !(blockRuns v c kb strip) then s
    else if !(statTileOk v c kb strip) then failPart s c core stBadTile
    else
      let bad := statTileBad v c kb strip
      let s := if c.lat.policy = 3 then bump s (ofLoader trwMendedCount core) bad else s
      let s := match statForm v c kb strip with
        | 1 => bump s sivFormLoadsSparse24 1
        | 2 => bump s sivFormLoadsBitmap 1
        | _ => s
      if c.lat.policy = 2 && 0 < bad then (mates s c).foldl (fun s m => modCmd s m.key trapInner) s else s) s

/-- Load a traversal's tiles into the slot of bit `b`, or into both for FP32 with the lower half in that slot (R86, R97). -/
def putSlot (s : State) (a : Nat) (c : Cmd) (strip : Nat) (kbs : List Nat) (b : Bool) : State :=
  let ar := arrayOf s a
  let v := coreView s c (a / 4)
  let ar1 := setSlotW ar b (loadedSlot v c kbs strip false)
  setArray s a (if (statFmt v c).fmt = .fp32 then setSlotW ar1 (!b) (loadedSlot v c kbs strip true) else ar1)

/-- The load an array can make: the first of its next tiles that no slot holds, into the front slot of an idle array, else into the back slot;
an FP32 tile needs both (R95 to R97, R115). -/
def slotWanted (s : State) (a : Nat) : Option (Cmd × Item × List Nat × Bool) :=
  let ar := arrayOf s a
  match (nextTiles s ar).find? (fun t => (slotOfStage ar t.1 t.2.1 t.2.2).isNone) with
  | none => none
  | some t =>
    match ar.passes.findSome? (fun p => (passCmd s p).filter (fun x => x.1.key == t.1 && x.2.kind == .stat && itemStrip x.1 x.2 == t.2.1)) with
    | none => none
    | some (c, i) =>
      let f32 := (statFmt (coreView s c (a / 4)) c).fmt == .fp32
      let front := slotIdle s ar ar.slotF
      let back := slotIdle s ar (!ar.slotF)
      if !(tilesHeld s c (a / 4) t.2.1 t.2.2) || !(arraysMay s c) || c.saved then none
      else if f32 then (if front && back then some (c, i, t.2.2, ar.slotF) else none)
      else if front && ar.groups.isEmpty then some (c, i, t.2.2, ar.slotF)
      else if back then some (c, i, t.2.2, !ar.slotF) else none

/-- Load one slot. -/
def loadSlot (s : State) (a : Nat) : Option State :=
  (slotWanted s a).map (fun x => putSlot (loadTiles s x.1 x.2.1 x.2.2.1) a x.1 (itemStrip x.1 x.2.1) x.2.2.1 x.2.2.2)

/-- SLOT_LOAD (R95, R96): an array begins its next pass, and loads the tile of a stage ahead; the other arrays of its core that can take the same
tile now receive it from the same read. -/
def slotMove (s : State) (a : Nat) : Option State :=
  let s0 := if (issuePass (arrayOf s a)).isNone then (beginLane s a).getD s else s
  match slotWanted s0 a with
  | none => if (issuePass (arrayOf s a)).isNone then beginLane s a else none
  | some x =>
    (loadSlot s0 a).map (fun t => (List.range 4).foldl (fun t j =>
      let b := a / 4 * 4 + j
      match slotWanted t b with
      | some y => if b != a && y.1.key == x.1.key && itemStrip y.1 y.2.1 == itemStrip x.1 x.2.1 && y.2.2.1 == x.2.2.1 then (loadSlot t b).getD t else t
      | none => t) t)

def execSlotLoad (a : BitVec 5) (s : State) : Host.Outcome State Fault Refusal := answer s (slotMove s a.toNat)

/-! ### Ends of passes -/

/-- Discard a pass: its row groups, its ACTIVE and LOADING planes, the slots of its command that nothing else uses (R69, R102, R130). -/
def dropPass (s : State) (a key item : Nat) : State :=
  let ar := arrayOf s a
  let clear := fun (x : Plane) => if x.key == key && x.item == item && (x.state == .active || x.state == .loading) then planeFree else x
  let slot := fun (x : WSlot) => if x.key == key then wslotEmpty else x
  setArray s a { ar with
    passes := ar.passes.filter (fun p => !(p.key == key && p.item == item))
    groups := ar.groups.filter (fun g => !(g.key == key && g.item == item))
    planeA := clear ar.planeA, planeB := clear ar.planeB, slot0 := slot ar.slot0, slot1 := slot ar.slot1 }

/-- Whether a pass is to be discarded: every part of it has failed, or has trapped and it stands at a K-block boundary (R69, R196). -/
def passDead (s : State) (p : Pass) : Bool :=
  p.parts.all (fun x => match findCmd s x.key with
    | none => true
    | some c => match c.items[x.item]? with
      | none => true
      | some i => !(itemAlive c i) || (itemTraps c i && p.grp == 0))

/-- Discard what is left of a command that fails or traps: passes, LOADING planes, after a trap its hod tiles, and what preemption has saved
(R69, R130, R131). -/
def purge (s : State) (c : Cmd) : State :=
  if c.errs.isEmpty && c.trapRow.isNone then s
  else
    let s := (List.range 24).foldl (fun s a =>
      let s := ((arrayOf s a).passes.filter (fun p => p.has c.key && passDead s p)).foldl (fun s p => dropPass s a p.key p.item) s
      let ar := arrayOf s a
      let dead := fun (x : Plane) => x.key == c.key && x.state != .folding && x.state != .saving &&
        (c.items[x.item]?).any (fun i => mustStop c i) && !(ar.passes.any (fun p => p.key == x.key && p.item == x.item))
      let clear := fun (x : Plane) => if dead x then planeFree else x
      if dead ar.planeA || dead ar.planeB then setArray s a { ar with planeA := clear ar.planeA, planeB := clear ar.planeB } else s) s
    let s := if c.trapRow.isSome then { s with hod := s.hod.filter (fun t => t.key != c.key) } else s
    if c.saved then { modCmd s c.key (fun c => { c with saved := false }) with images := s.images.filter (fun x => x.key != c.key) } else s

/-- The entries of a plane's part as its own rows. -/
def partEntries (pl : Plane) (x : PlanePart) (cols : Nat) : List (Nat × BitVec 48) :=
  planeCells x.rows cols (fun r q => (tfind pl.entries ((x.off + r) * 256 + q)).getD 0)

/-- The sums of the rows of a group leave at the edge (R92); those of a trapped command are discarded (R69, R114). -/
def leaveRows (s : State) (p : Pass) (g : RowGrp) (c : Cmd) (i : Item) (pl : Plane) : State :=
  (groupPlaces c p g.stage g.grp).foldl (fun s t =>
    let x := rowAt p g.stage t
    modCmd s x.1 (fun m => if itemTraps m i then m else
      leaveEdge s m ((List.range (planeCols c i)).map (fun q => (x.2, 256 * itemStrip c i + q, (tfind pl.entries (t * 256 + q)).getD 0))))) s

/-- A NaN or Inf that arose inside an array, sampled at a K-block boundary, traps its command (R69). -/
def sampleInner (s : State) (pl : Plane) (ps : List PlanePart) : State :=
  ps.foldl (fun s x => modCmd s x.key (fun c =>
    if innerTraps c (pl.entries.filter (fun e => ps.length ≤ 1 || (x.off ≤ e.1 / 256 && e.1 / 256 < x.off + x.rows))) then trapInner c else c)) s

/-- Whether the lane of an item holds adapter tiles no more: its W array is released as the tile ends (R138). -/
def releasedNow (c : Cmd) (k : Nat) (i : Item) : Bool :=
  i.kind == .db && ((c.items.mapIdx (fun n x => (n, x))).all (fun x => x.1 == k || !(x.2.kind == .db && x.2.array == i.array && x.2.st != .done)))

/-- The end of a pass: its cell steps noted, its plane to FOLDING, or FREE when the results left at the edge (R61, R100). -/
def endPass (s : State) (a : Nat) (p : Pass) (b : Bool) (c : Cmd) (i : Item) : State :=
  let ar := arrayOf s a
  let pl := planeAt ar b
  let folds := i.kind != .stat || pToGroup c.desc
  let s1 := setArray s a { setPlane ar b (if folds then { pl with state := .folding } else planeFree) with
    passes := ar.passes.filter (fun q => !(q.key == p.key && q.item == p.item)) }
  let s2 := p.parts.foldl (fun s x => modCmd s x.key (fun c => noteSteps c pl.count)) (setItems s1 p.parts (if folds then .summed else .done))
  if releasedNow c p.item i then bump s2 (corReleasedCount (a / 4)) 1 else s2

/-- What follows the last row group of a stage in every patch (R69, R92, R100, R124). -/
def endStage (s : State) (a : Nat) (p : Pass) (g : RowGrp) (c : Cmd) (i : Item) : State :=
  let pl := planeAt (arrayOf s a) g.planeB
  let s := sampleInner s pl p.parts
  let ends := p.stages.isEmpty && (arrayOf s a).groups.all (fun h => !(h.key == p.key && h.item == p.item))
  if i.kind == .stat && dOp c.desc == 5 then
    let s := modCmd s c.key (fun c => noteSteps c pl.count)
    if i.c + 1 < pJ c.desc then
      let ar := setPlane (arrayOf s a) g.planeB { pl with loaded := true }
      setArray s a (if ends then { ar with passes := ar.passes.filter (fun q => !(q.key == p.key && q.item == p.item)) } else ar)
    else if ends then endPass s a p g.planeB c i
    else setArray s a (setPlane (arrayOf s a) g.planeB planeFree)
  else if ends then endPass s a p g.planeB c i else s

/-! ### Row groups (R87, R88, R100) -/

/-- The patches an item uses: the blocks of its outputs over the whole path in stationary mode, the blocks of its tile else (R90, R91). -/
def patchPlace (s : State) (c : Cmd) (n : Nat) : Nat × Nat := if plainRead s c then (n / 16, n % 16) else (n % 16, n / 16)
def patchUsed (s : State) (c : Cmd) (i : Item) (n : Nat) : Bool :=
  match i.kind with
  | .stat => (patchPlace s c n).2 < ceilDiv (planeCols c i) 16
  | _ => n / 16 < ceilDiv (planeRows c i) 16 && n % 16 < ceilDiv (planeCols c i) 16
def usedPatches (s : State) (c : Cmd) (i : Item) : List Nat := (List.range 256).filter (patchUsed s c i)

/-- The command and item of a row group. -/
def grpCmd (s : State) (g : RowGrp) : Option (Cmd × Item) :=
  match findCmd s g.key with
  | none => none
  | some c => (c.items[g.item]?).map (fun i => (c, i))

/-- Whether a patch has a row group still to do. -/
def owes (s : State) (n : Nat) (g : RowGrp) : Bool :=
  !(g.done.contains n) && (match grpCmd s g with
    | some x => patchUsed s x.1 x.2 n
    | none => false)

/-- Whether no skid buffer of an array is full: 64 row groups for each patch (R103). -/
def skidRoom (s : State) (ar : ArraySt) : Bool :=
  (List.range 256).all (fun n => (ar.groups.filter (owes s n)).length < 64)

/-- The plane a row group of the stage goes to: the one ACTIVE for the pass, a LOADING one that is complete, or a FREE one where nothing is awaited
(R99, R100, R124, R167). -/
def stagePlane (ar : ArraySt) (c : Cmd) (i : Item) (p : Pass) (st : Stage) : Option (Bool × Plane) :=
  let pairD := i.kind == .stat && dOp c.desc == 5
  let mine := fun (x : Plane) => x.key == p.key && x.item == p.item && (!pairD || x.resume.1 == st.1)
  match findPlane ar (fun x => x.state == .active && mine x) with
  | some b => some (b, planeAt ar b)
  | none =>
    match findPlane ar (fun x => x.state == .loading && mine x) with
    | some b => if (planeAt ar b).loaded then some (b, { planeAt ar b with state := .active, loaded := false }) else none
    | none =>
      if pairD && i.c != 0 then none
      else (if pairD then (match freePlane ar with
          | some b => some b
          | none => findPlane ar (fun x => x.state == .free)) else freePlane ar).map (fun b =>
        (b, { planeFree with state := .active, key := p.key, item := p.item, parts := p.parts, resume := (st.1, st.2.head?.getD 0, 0) }))

/-- Cell steps a row group adds to its plane's count: all of a traversal with its first row group in stationary mode, one each in outer-product
mode (R61). -/
def issueSteps (v : State) (c : Cmd) (i : Item) (p : Pass) (st : Stage) : Nat :=
  if i.kind == .stat then
    (if p.grp = 0 then (stageRaw v c (statK v c) st.2 (256 * itemStrip c i)).length / statK v c else 0)
  else 1

/-- Whether the rows of the next row group have been screened, those of every command of the window (R187). -/
def rowsScreened (s : State) (c : Cmd) (p : Pass) (st : Stage) : Bool :=
  (groupPlaces c p st p.grp).all (fun t =>
    let x := rowAt p st t
    (findCmd s x.1).all (fun m => x.2 < m.screened || !(m.errs.isEmpty)))

/-- The item of the next unit of the strip (R124). -/
def nextUnit (c : Cmd) (i : Item) : Option (Nat × Item) :=
  (c.items.mapIdx (fun k x => (k, x))).find? (fun x => x.2.kind == .stat && x.2.r == i.r && x.2.c == i.c + 1)

/-- Whether a unit hands its carries on across the seam, from lane L − 1 to lane 0 (R126). -/
def overSeam (s : State) (c : Cmd) (i j : Item) : Bool := i.lane + 1 == (lanes s (pSingles c.desc)).length && j.lane == 0

/-- Hod tiles of commands that are not saved (R126, R129). -/
def hodUsed (s : State) : Nat := (s.hod.filter (fun t => !((findCmd s t.key).any (·.saved)))).length

/-- Whether a lane may begin window `v` of a PAIR's unit: the lane that takes its carries has begun the window before, or the hod has room. Carries go
on by whole windows, so each D array holds at most two (R124, R126; DESIGN CHOICE, log 80). -/
def relayReady (s : State) (c : Cmd) (i : Item) (v : Nat) : Bool :=
  match nextUnit c i with
  | none => true
  | some (k, j) =>
    mustStop c j || (if overSeam s c i j then hodUsed s < 16
      else (arrayOf s j.array).passes.any (fun q => q.key == c.key && q.item == k &&
        (match q.stages.head? with
          | some st => st.1 == v || (st.1 + 1 == v && 0 < q.grp)
          | none => true)))

/-- Whether the pass can issue its next row group. -/
def canIssue (s : State) (a : Nat) (p : Pass) : Bool :=
  let ar := arrayOf s a
  match passCmd s p, p.stages.head? with
  | some (c, i), some st =>
    arraysMay s c && ar.on && p.grp < rowGroups c p st && rowsScreened s c p st && skidRoom s ar && (stagePlane ar c i p st).isSome &&
      (0 < p.grp || i.kind != .stat || dOp c.desc != 5 || relayReady s c i st.1) &&
      (i.kind != .stat || (slotOfStage ar p.key (itemStrip c i) st.2).isSome)
  | _, _ => false

/-- Issue the next row group of a pass on array `a`. -/
def issueOne (s : State) (a : Nat) (p : Pass) : State :=
  let ar := arrayOf s a
  match passCmd s p, p.stages.head? with
  | some (c, i), some st =>
    match stagePlane ar c i p st with
    | none => s
    | some (b, pl) =>
      let slot := if i.kind == .stat then (slotOfStage ar p.key (itemStrip c i) st.2).getD ar.slotF else ar.slotF
      let ends := p.grp + 1 == rowGroups c p st
      let last := i.kind == .stat && !(pToGroup c.desc) && (if dOp c.desc = 5 then i.c + 1 == pJ c.desc else p.stages.length == 1)
      let v := coreView s c (a / 4)
      let ar1 := setPlane ar b { pl with count := pl.count + issueSteps v c i p st, resume := (st.1, st.2.head?.getD st.1, 0) }
      let ar2 := modPass ar1 p.key p.item (fun q => if ends then { q with stages := q.stages.drop 1, grp := 0 } else { q with grp := q.grp + 1 })
      setArray s a { ar2 with
        groups := ar2.groups ++ [⟨p.key, p.item, st, p.grp, last, slot, b, [], []⟩]
        lastB := b, k := p.k, filler := false, slotF := slot }
  | _, _ => s

/-- The passes that issue together with a pass of array `a`: both arrays of a pair lane consume each row group together; a single array
alternates (R100, R123, R140). -/
def jointPasses (s : State) (a : Nat) (p : Pass) : List (Nat × Pass) :=
  match passCmd s p with
  | none => [(a, p)]
  | some (c, i) => match jointOf s c p.item i with
    | none => [(a, p)]
    | some (k, j) =>
      if j.array == a then [(a, p)]
      else (a, p) :: ((arrayOf s j.array).passes.filter (fun q => q.key == p.key && q.item == k && !q.stages.isEmpty)).map (fun q => (j.array, q))

/-- The lane of a unit begins it: whether its dY′ is in the lane's cache (R127). -/
def enterUnit (s : State) (c : Cmd) (i : Item) : State :=
  let core := i.array / 4
  let hit := (tget (0, 0) s.dyCache i.lane).1 == c.key + 1 && (tget (0, 0) s.dyCache i.lane).2 / 2 == i.c &&
    (List.range (pV c.desc)).all (fun v => blkHeld s c core ⟨1, i.lane + 1, v, i.c⟩)
  let s1 := { s with dyCache := tput (0, 0) s.dyCache i.lane (c.key + 1, 2 * i.c + (if hit then 1 else 0)) }
  if hit then bump s1 (corDycHitsCount core) 1 else s1

/-- Whether the dY′ of a unit comes from the cache. -/
def cachedUnit (s : State) (c : Cmd) (i : Item) : Bool :=
  dOp c.desc == 5 && tget (0, 0) s.dyCache i.lane == (c.key + 1, 2 * i.c + 1)

/-- dY′ of a row group is formed, once for a lane; DERIV_SAT counts what saturates (R127, R132, R136). -/
def formDy (s : State) (a : Nat) (p : Pass) : State :=
  match passCmd s p, p.stages.head? with
  | some (c, i), some st =>
    let first := dOp c.desc == 5 && st.1 == 0 && p.grp == 0 && (i.kind == .stat || !(c.items.any (fun x => x.kind == .stat && x.lane == i.lane && x.r == i.r && x.c == i.c && x.st == .active)))
    let s := if first then enterUnit s c i else s
    if cachedUnit s c i || (i.kind != .stat && dOp c.desc == 5 && (jointOf s c p.item i).any (fun x => x.2.st == .active && x.2.array == a)) then s
    else
      let js := if i.kind == .stat then st.2 else [i.c]
      bump s (corDerivSatCount (a / 4)) ((groupPlaces c p st p.grp).foldl (fun n t =>
        let x := rowAt p st t
        match findCmd s x.1 with
        | some m => n + derivSat (coreView s m (a / 4)) m x.2 1 js
        | none => n) 0)
  | _, _ => s

/-! ### Draining for preemption (R101, R102, R129) -/

/-- The save area's depth of a command: 0 for class 3, 1 for class 2 (R316). -/
def saveDepth (s : State) (c : Cmd) : Nat := if classOf s c.q = 3 then 0 else 1

/-- Where the plane of an item on array `a` is saved. A single array's second plane, its carries, takes the place of the array its core does not
have (R316; DESIGN CHOICE, log 79). -/
def saveAddr (s : State) (c : Cmd) (i : Item) (a : Nat) : Nat :=
  let spare := if i.kind == .stat && dOp c.desc == 5 && (laneOf s a).any (·.single) then
      ((List.range 4).find? (fun j => !((liveOfCore s (a / 4)).contains j))).map (fun j => a / 4 * 4 + j) else none
  rd s cmdSaveBaseAddr + (2 * spare.getD a + saveDepth s c) * 0x80000

/-- A plane leaves for the save area: SAVING, with what the engine notes of it. -/
def savePlane (s : State) (a : Nat) (b : Bool) (c : Cmd) (i : Item) (pass : Option Pass) : State :=
  let ar := arrayOf s a
  let pl := planeAt ar b
  let x := { pl with state := .saving, src := saveAddr s c i a, loaded := false }
  { setArray s a (setPlane ar b x) with images := s.images ++ [⟨c.key, a, pass, some { x with entries := [] }⟩] }

/-- Whether the standby plane of an array is still moving the last pass out, so that the swap waits for a later boundary (R102). -/
def standbyBusy (ar : ArraySt) (p : Pass) : Bool :=
  [ar.planeA, ar.planeB].any (fun x => (x.state == .folding || x.state == .saving) && !(x.key == p.key && x.item == p.item))

/-- Park a pass of a saved command at a K-block boundary: its plane to SAVING, a complete plane of carries too; a pass that has issued nothing is
withdrawn; an image not yet loaded stays in the save area. -/
def parkPass (s : State) (a : Nat) (p : Pass) : State :=
  match passCmd s p with
  | none => s
  | some (c, i) =>
    let ar := arrayOf s a
    let s1 := setArray s a { ar with passes := ar.passes.filter (fun q => !(q.key == p.key && q.item == p.item)) }
    let mine := fun (x : Plane) => x.key == p.key && x.item == p.item
    let s2 := match findPlane ar (fun x => x.state == .loading && mine x && !x.loaded && x.src != 0) with
      | some b => { setArray s1 a (setPlane (arrayOf s1 a) b planeFree) with
          images := s1.images ++ [⟨p.key, a, some p, some { planeAt ar b with state := .saving }⟩] }
      | none => match findPlane ar (fun x => mine x && ((x.state == .active && !x.loaded) || x.state == .loading)) with
        | some b => savePlane s1 a b c i (some p)
        | none =>
          if i.kind == .stat && dOp c.desc != 5 || p.stages.length == pV c.desc then setItems s1 p.parts .todo
          else { s1 with images := s1.images ++ [⟨p.key, a, some p, none⟩] }
    s2

/-- Complete planes of carries that no pass of a saved command takes any more go to SAVING (R129). -/
def saveCarries (s : State) (c : Cmd) : State :=
  (List.range 24).foldl (fun s a => [false, true].foldl (fun s b =>
    let ar := arrayOf s a
    let x := planeAt ar b
    if c.saved && x.state == .loading && x.key == c.key && x.loaded && ar.passes.all (fun p => p.key != c.key || p.item != x.item) then
      match c.items[x.item]? with
      | some i => savePlane s a b c i none
      | none => s
    else s) s) s

/-- A pass with those of its lane's group, wherever they stand. -/
def groupPasses (s : State) (a : Nat) (p : Pass) : List (Nat × Pass) :=
  match passCmd s p with
  | none => [(a, p)]
  | some (c, i) => match jointOf s c p.item i with
    | some (k, j) => (a, p) :: ((arrayOf s j.array).passes.filter (fun q => q.key == p.key && q.item == k)).map (fun q => (j.array, q))
    | none => [(a, p)]

/-- Whether a pass stands at a K-block boundary with every row group before it through its patches. -/
def atBoundary (s : State) (x : Nat × Pass) : Bool :=
  x.2.grp == 0 && !x.2.stages.isEmpty && (arrayOf s x.1).groups.all (fun g => !(g.key == x.2.key && g.item == x.2.item))

/-- Park the passes of a saved command that stand at a boundary, those of a lane's group together. -/
def parkLane (s : State) (a : Nat) (p : Pass) : Option State :=
  let js := groupPasses s a p
  if js.all (fun x => x.2.stages.isEmpty || (atBoundary s x && !(standbyBusy (arrayOf s x.1) x.2))) then
    let t : State := (js.filter (fun x => !x.2.stages.isEmpty)).foldl (fun s x => parkPass s x.1 x.2) s
    some ((findCmd t p.key).elim t (saveCarries t))
  else none

/-- Whether a single array that alternates stands between the D half and the W half of a window (R140). -/
def halfway (s : State) (a : Nat) (p : Pass) : Bool :=
  match passCmd s p with
  | none => false
  | some (c, i) =>
    (laneOf s a).any (·.single) && dOp c.desc == 5 && (i.kind == .dw || (i.kind == .db && pFrozen c.desc)) &&
      (jointOf s c p.item i).any (fun x =>
        (((arrayOf s a).passes.find? (fun q => q.key == p.key && q.item == x.1)).elim (if x.2.st == .todo then pV c.desc else 0) (·.stages.length)) < p.stages.length)

/-- ROW_GROUP_ISSUE (R87): the next row group of the array's pass and of the one that consumes it together with it, when its rows have been
screened, its slots are loaded, its planes are ready and no skid buffer is full (R96, R100, R103). A pass of a trapped or failed part is discarded
(R69); one of a preempted command is saved at the boundary (R101); a tile without a traversal leaves +0 (R214). -/
def issueMove (s : State) (a : Nat) : Option State :=
  match issuePass (arrayOf s a) with
  | none =>
    match (arrayOf s a).passes.find? (fun p => p.stages.isEmpty && (arrayOf s a).groups.all (fun g => !(g.key == p.key && g.item == p.item)) &&
        (passCmd s p).any (fun x => x.2.kind == .stat && dOp x.1.desc != 5)) with
    | some p => match passCmd s p with
      | none => none
      | some (c, i) =>
        let st : Stage := (i.r, [])
        if !((List.range (rowGroups c p st)).all (fun g => rowsScreened s c { p with grp := g } st)) then none
        else match stagePlane (arrayOf s a) c i p st with
          | none => none
          | some (b, pl) =>
            let s1 := setArray s a { setPlane (arrayOf s a) b pl with lastB := b }
            let s2 := if pToGroup c.desc then s1 else
                (List.range (rowGroups c p st)).foldl (fun s g => leaveRows s p ⟨p.key, p.item, st, g, true, false, b, [], []⟩ c i pl) s1
            some (endPass s2 a p b c i)
    | none => beginLane s a
  | some p0 =>
    match passCmd s p0 with
    | none => none
    | some (c0, i0) =>
      let s1 : State := (jointPasses s a p0).foldl (fun s x => match passCmd s x.2 with
        | some (c, i) => meetFailure (meetArray s c i (fun d => arrayDamage x.1 (i.kind == .stat) d || cmdDamage c d)) c i
        | none => s) s
      let c : Cmd := (findCmd s1 c0.key).getD c0
      let s2 : State := (mates s1 c).foldl purge s1
      match (arrayOf s2 a).passes.find? (fun (q : Pass) => q.key == p0.key && q.item == p0.item) with
      | none => some s2
      | some p =>
        let js := jointPasses s2 a p
        if c.saved && p.grp == 0 && !(halfway s2 a p) && (groupPasses s2 a p).all (fun x => !(standbyBusy (arrayOf s2 x.1) x.2)) then
          parkLane s2 a p
        else if js.all (fun x => x.2.grp == p.grp && (x.2.stages.head?.map (·.1)) == (p.stages.head?.map (·.1)) && canIssue s2 x.1 x.2) then
          some (js.foldl (fun s x => issueOne s x.1 x.2) (formDy s2 a p))
        else if i0.kind == .stat && chainBroken c i0 && p.grp == 0 && !(s2.hod.any (fun t => t.key == c.key)) &&
            !(s2.arrays.any (fun x => [x.2.planeA, x.2.planeB].any (fun y => y.state != .free && y.key == c.key && (c.items[y.item]?).any (fun z =>
              z.kind == .stat && z.r == i0.r && z.c ≤ i0.c)))) then
          some (dropPass s2 a p.key p.item)
        else if s2 == s then none else some s2

def execRowGroupIssue (a : BitVec 5) (s : State) : Host.Outcome State Fault Refusal := answer s (issueMove s a.toNat)

/-! ### Patches (R103, R56, R91, R92) -/

/-- Whether the rows of a window and columns `q0` to `q0 + nq - 1` of an operand are here as far as the element values need them: with their whole
blocks of 32 for MX. -/
def operandHere (s : State) (c : Cmd) (i : Item) (core op w r0 nr q0 nq : Nat) : Bool :=
  let l := opLay s c.desc op
  let r := if l.mx && axisRow l 0 then (r0 / 32 * 32, min (pM c.desc) (roundUp (r0 + nr) 32) - r0 / 32 * 32) else (r0, nr)
  let q := if l.mx && !(axisRow l 0) then (q0 / 32 * 32, min (opCols c.desc op) (roundUp (q0 + nq) 32) - q0 / 32 * 32) else (q0, nq)
  regionHere s c core (blkOf c.desc op w (q0 / 256) i) r.1 r.2 q.1 q.2

/-- The operands dY′ comes from. -/
def dyOps (d : List Byte) : List Nat := if pDsrc d = 0 then [1] else [1, 2]

/-- Whether the lane entries of a patch for a row group are here: the columns its cells take, on row lanes and column lanes (R89, R90, R103). -/
def lanesHere (s : State) (a : Nat) (p : Pass) (g : RowGrp) (c : Cmd) (i : Item) (n : Nat) : Bool :=
  let core := a / 4
  let rows := (groupPlaces c p g.stage g.grp).map (rowAt p g.stage)
  match i.kind with
  | .stat =>
    let v := coreView s c core
    let x := patchPlace s c n
    let outs := ((List.range 16).map (16 * x.2 + ·)).filter (· < planeCols c i)
    let qs := (outs.flatMap (fun o => (((stageRaw v c (statK v c) g.stage.2 (256 * itemStrip c i + o)).drop (16 * x.1)).take 16).flatten.map (·.1))).eraseDups
    rows.all (fun r => (findCmd s r.1).all (fun m => qs.all (fun q => (dyOps m.desc).all (fun op =>
      operandHere s m i core op g.stage.1 r.2 1 q 1))))
  | k =>
    let w := g.stage.1
    let r0 := (rows.head?.map (·.2)).getD 0
    let q0 := 256 * i.c + 16 * (n % 16)
    let x0 := (if k == .db then 0 else 256 * i.r) + 16 * (n / 16)
    (dyOps c.desc).all (fun op => operandHere s c i core op w r0 rows.length q0 (min 16 (pKExt c.desc - q0))) &&
      operandHere s c i core (if k == .db then 4 else 3) w r0 rows.length x0 (min 16 (opCols c.desc (if k == .db then 4 else 3) - x0))

/-- The patch before and the last one on the path of a patch. -/
def patchBefore (s : State) (c : Cmd) (n : Nat) : Nat := if plainRead s c then n - 16 else n - 1
def patchLast (s : State) (c : Cmd) (n : Nat) : Nat := if plainRead s c then 240 + n % 16 else n / 16 * 16 + 15

/-- The next row group of a patch. -/
def nextRowGroup (s : State) (ar : ArraySt) (n : Nat) : Option RowGrp := ar.groups.find? (owes s n)

/-- Whether a patch holds what it needs for its next row group: the lane entries, the sums of the segment before, and for the first segment the
carries of the traversal before (R93, R103). -/
def patchReady (s : State) (a : Nat) (n : Nat) (g : RowGrp) (p : Pass) (c : Cmd) (i : Item) : Bool :=
  lanesHere s a p g c i n &&
    (i.kind != .stat || (if (patchPlace s c n).1 = 0 then
      ((arrayOf s a).groups.takeWhile (· != g)).all (fun h => h.key != g.key || h.item != g.item || h.stage.1 != g.stage.1 || h.grp != g.grp ||
        h.done.contains (patchLast s c n))
      else g.done.contains (patchBefore s c n)))

/-- One row and output of a patch in stationary mode: the sum that comes in takes the cell steps of the segment and goes on (R91). -/
def patchSum (v : State) (m c : Cmd) (i : Item) (g : RowGrp) (seg t r o : Nat) (st : Plane × List (Nat × BitVec 48)) :
    Plane × List (Nat × BitVec 48) :=
  let key := t * 256 + o
  let cells := ((stageCells v c (statK v c) g.stage.2 (256 * itemStrip c i + o)).drop (16 * seg)).take 16
  let x := pathSum v m r cells ((if seg = 0 then tfind st.1.entries key else tfind st.2 key).getD 0)
  if seg < 15 then (st.1, tput 0 st.2 key x) else ({ st.1 with entries := tput 0 st.1.entries key x }, tdel st.2 key)

/-- The work of a patch on one row group: the plane and the sums between segments after it. -/
def patchWork (s : State) (a : Nat) (p : Pass) (g : RowGrp) (c : Cmd) (i : Item) (pl : Plane) (n : Nat) : Plane × List (Nat × BitVec 48) :=
  let ts := groupPlaces c p g.stage g.grp
  match i.kind with
  | .stat =>
    let x := patchPlace s c n
    let outs := ((List.range 16).map (16 * x.2 + ·)).filter (· < planeCols c i)
    ts.foldl (fun st t =>
      let r := rowAt p g.stage t
      let m := (findCmd s r.1).getD c
      outs.foldl (fun st o => patchSum (coreView s m (a / 4)) m c i g x.1 t r.2 o st) st) (pl, g.sums)
  | k =>
    let v := coreView s c (a / 4)
    let l := if k == .db then hLay s c.desc else xLay s c.desc
    let rs := ts.map (fun t => (rowAt p g.stage t).2)
    let is := ((List.range 16).map (16 * (n / 16) + ·)).filter (· < planeRows c i)
    let js := ((List.range 16).map (16 * (n % 16) + ·)).filter (· < planeCols c i)
    ({ pl with entries := is.foldl (fun e x => js.foldl (fun e y =>
        tput 0 e (x * 256 + y) (outerStep v c l ((if k == .db then 0 else 256 * i.r) + x) (256 * i.c + y) ((tfind e (x * 256 + y)).getD 0) rs)) e) pl.entries },
      g.sums)

/-- A row group that every patch has done leaves the array: its rows at the edge, the end of its stage (R92, R100). -/
def endGroup (s : State) (a : Nat) (g : RowGrp) (p : Pass) (c : Cmd) (i : Item) : State :=
  let ar := arrayOf s a
  let s1 := setArray s a { ar with groups := ar.groups.erase g }
  let s2 := if g.last then leaveRows s1 p g c i (planeAt ar g.planeB) else s1
  if g.grp + 1 == rowGroups c p g.stage then endStage s2 a p g c i else s2

/-- PATCH_ROW_GROUP (R103): the next row group of a patch that holds its inputs. -/
def patchMove (s : State) (a n : Nat) : Option State :=
  let ar := arrayOf s a
  match nextRowGroup s ar n with
  | none => none
  | some g =>
    match ar.passes.find? (fun p => p.key == g.key && p.item == g.item), grpCmd s g with
    | some p, some (c, i) =>
      if unitsRun s && patchReady s a n g p c i then
        let w := patchWork s a p g c i (planeAt ar g.planeB) n
        let g1 := { g with done := g.done ++ [n], sums := w.2 }
        let s1 := setArray s a { setPlane ar g.planeB w.1 with
          groups := ar.groups.map (fun h => if h == g then g1 else h), starved := ar.starved.filter (· != n) }
        some (if (usedPatches s c i).all (g1.done.contains ·) then endGroup s1 a g1 p c i else s1)
      else none
    | _, _ => none

def execPatchRowGroup (a : BitVec 5) (patch : BitVec 8) (s : State) : Host.Outcome State Fault Refusal :=
  answer s (patchMove s a.toNat patch.toNat)

end Sys2Proof.Machine
end

