-- ==== Sys2Proof/Machine/Traffic.lean ====
section
/-! DEFINITION. What moves into and out of the arrays (04 R99 to R106, 05 R124 to R131, 07 R180 to R197, 12 R315, R316): the carry relay and the
hod, plane loads and saves, folds, fetches and stores, preemption and resumption, the watchdog, and a product run as far as it goes. -/

namespace Sys2Proof.Machine

/-! ### Carry relay and hod (R124 to R126) -/

/-- The plane of an array with the oldest finished window of a PAIR, whose carries go on to the next unit. -/
def carryOut (ar : ArraySt) : Option (Bool × Plane) :=
  let f := fun (x : Plane) => x.state == .active && x.loaded
  if f ar.planeA && f ar.planeB then (if ar.planeA.resume.1 ≤ ar.planeB.resume.1 then some (false, ar.planeA) else some (true, ar.planeB))
  else if f ar.planeA then some (false, ar.planeA) else if f ar.planeB then some (true, ar.planeB) else none

/-- Whether the W work of a unit runs on the array of its D work and is not over (R140). -/
def alternates (c : Cmd) (j : Item) : Bool :=
  c.items.any (fun x => x.kind != .stat && x.array == j.array && x.lane == j.lane && x.c == j.c && (x.kind == .db || x.r == j.r) &&
    (x.st == .todo || x.st == .active))

/-- The FREE plane that receives the carries of window `v` for tile `k`: when the lane works on the unit and every window before has its plane; a
single array that alternates holds the carries of one window at a time (R126, R140). A saved command's lanes stand empty (R129). -/
def carryRoom (s : State) (c : Cmd) (k v : Nat) (j : Item) : Option Bool :=
  let ar := arrayOf s j.array
  let mine := [ar.planeA, ar.planeB].filter (fun x => x.state != .free && x.key == c.key && x.item == k)
  let free := findPlane ar (fun x => x.state == .free)
  if c.saved then free
  else match ar.passes.find? (fun p => p.key == c.key && p.item == k) with
    | none => none
    | some p =>
      if p.stages.any (fun st => st.1 == v) && p.stages.all (fun st => v ≤ st.1 || mine.any (fun x => x.resume.1 == st.1)) &&
          !(alternates c j && !mine.isEmpty) then free
      else none

/-- A plane that has received a window's carries. -/
def carryPlane (s : State) (c : Cmd) (k v : Nat) (j : Item) (count : Nat) (e : List (Nat × BitVec 48)) : Plane :=
  ⟨.loading, e, count, c.key, k, [partOf s c k j 0], true, 0, (v, j.c, 0)⟩

/-- Rows of a plane record in the save area, and its bytes: those of a whole plane in AF48 (R168, R316). -/
def recordRows : Nat := 256
def planeBytes : Nat := 64 + recordRows * 256 * 6 + 8

/-- The address of the `n`th hod tile of a command in the save area (R316). -/
def hodAddr (s : State) (c : Cmd) (n : Nat) : Nat := rd s cmdSaveBaseAddr + 0x1800000 + saveDepth s c * 0x800000 + n * 0x80000

/-- Store a hod tile of a saved command in the save area: in the first place its command does not use (R129, R316). -/
def saveHod (s : State) (c : Cmd) (t : HodTile) : State × HodTile :=
  let used := (s.hod.filter (fun x => x.key == c.key)).map (·.src)
  let n := ((List.range 16).find? (fun n => !(used.contains (hodAddr s c n)))).getD 15
  (s.store (hodAddr s c n) (planeRecord recordRows t.count (dStamp c.desc) t.strip (t.window % 2 ^ 16 + t.kb % 2 ^ 16 * 2 ^ 16) (longsumLimit < t.count)
    (fun k => (tfind t.entries k).getD 0)), { t with src := hodAddr s c n, entries := [] })

/-- A tile enters the hod; COR.HOD_STAT keeps the peak (R126). -/
def enterHod (s : State) (c : Cmd) (t : HodTile) : State :=
  if c.saved then
    let x := saveHod s c t
    awaitWrites { x.1 with hod := x.1.hod ++ [x.2] } c.key 7
  else
    let s1 := { s with hod := s.hod ++ [t] }
    wr s1 (corHodStatPeak 0) (max (rd s1 (corHodStatPeak 0)) (hodUsed s1))

/-- CARRY_RELAY of array `a` (R124, R126): the carries of its finished window go into a FREE plane of the next unit's lane, or across the seam into
the hod when it has room; to a lane that fails or traps they do not go. The unit's D work ends with its last window. -/
def relayMove (s : State) (a : Nat) : Option State :=
  let ar := arrayOf s a
  match carryOut ar with
  | none => none
  | some (b, pl) =>
    match findCmd s pl.key with
    | none => some (setArray s a (setPlane ar b planeFree))
    | some c =>
      match c.items[pl.item]? with
      | none => none
      | some i =>
        match nextUnit c i with
        | none => none
        | some (k, j) =>
          let v := pl.resume.1
          let s0 := setArray s a (setPlane ar b planeFree)
          let s1 := if v + 1 = pV c.desc then modCmd s0 c.key (fun c => setItem c pl.item .done) else s0
          if !(unitsRun s) then none
          else if mustStop c j then some s1
          else if overSeam s c i j then
            if c.saved || hodUsed s < 16 then some (enterHod s1 c ⟨c.key, i.r, v, i.c + 1, pl.count, 0, pl.entries⟩) else none
          else (carryRoom s1 c k v j).map (fun b' =>
            let s2 := setArray s1 j.array (setPlane (arrayOf s1 j.array) b' (carryPlane s1 c k v j pl.count pl.entries))
            (findCmd s2 c.key).elim s2 (saveCarries s2))

def execCarryRelay (a : BitVec 5) (s : State) : Host.Outcome State Fault Refusal := answer s (relayMove s a.toNat)

/-- The part under which bytes of the save area are read back. -/
def savePart (src : Nat) : Nat := 2 ^ 60 + src

/-- The entries of a plane record read back from the save area, once all of it is here (R168). -/
def recordBack (s : State) (key src : Nat) : Option (List (Nat × BitVec 48)) :=
  if partWaits s key 7 (savePart src) then none
  else (s.staged.find? (fun e => e.key == key && e.core == 7 && e.part == savePart src)).map (fun e =>
    let v := { s with rbuf := e.cells }
    (planeEntries 0x9 recordRows (fun o m => v.bytes (src + 64 + o) m)).filter (fun p => p.2 != 0))

/-- What has been read back is used. -/
def dropBack (s : State) (key src : Nat) : State :=
  { s with staged := s.staged.filter (fun e => !(e.key == key && e.core == 7 && e.part == savePart src)) }

/-- HOD_DELIVERY: the oldest hod tile of a running command goes into a FREE plane of its unit's array (R126). -/
def hodMove (s : State) : Option State :=
  match s.hod.find? (fun t => (findCmd s t.key).all (fun c => !c.saved)) with
  | none => none
  | some t =>
    let out := { s with hod := s.hod.erase t }
    match findCmd s t.key with
    | none => some out
    | some c =>
      match (c.items.mapIdx (fun k x => (k, x))).find? (fun x => x.2.kind == .stat && x.2.r == t.strip && x.2.c == t.kb) with
      | none => some out
      | some (k, j) =>
        if !(unitsRun s) then none
        else if mustStop c j then some out
        else match carryRoom s c k t.window j, (if t.src = 0 then some t.entries else recordBack s t.key t.src) with
          | some b, some e =>
            some (setArray (dropBack out t.key t.src) j.array (setPlane (arrayOf s j.array) b (carryPlane s c k t.window j t.count e)))
          | _, _ => none

def execHodDelivery (s : State) : Host.Outcome State Fault Refusal := answer s (hodMove s)

/-! ### Plane moves (R99 to R102) -/

/-- PLANE_LOAD_COMPLETE: a LOADING plane has its image and waits to become ACTIVE (R99). -/
def loadMove (s : State) (a : Nat) : Option State :=
  let ar := arrayOf s a
  match findPlane ar (fun x => x.state == .loading && !x.loaded) with
  | none => none
  | some b =>
    let x := planeAt ar b
    if !(unitsRun s) then none
    else if x.src = 0 then some (setArray s a (setPlane ar b { x with loaded := true }))
    else (recordBack s x.key x.src).map (fun e =>
      setArray (dropBack s x.key x.src) a (setPlane ar b { x with loaded := true, src := 0, entries := e }))

def execPlaneLoadComplete (a : BitVec 5) (s : State) : Host.Outcome State Fault Refusal := answer s (loadMove s a.toNat)

/-- The record of a saved plane (R168, R316). -/
def savedRecord (c : Cmd) (x : Plane) : List Byte :=
  planeRecord recordRows x.count (dStamp c.desc) ((x.parts.head?.map (·.tile)).getD 0)
    (x.resume.1 % 2 ^ 16 + x.resume.2.1 % 2 ^ 16 * 2 ^ 16 + x.resume.2.2 % 2 ^ 16 * 2 ^ 32) (longsumLimit < x.count) (fun k => (tfind x.entries k).getD 0)

/-- PLANE_SAVE_COMPLETE: the SAVING plane's record goes to the save area and the plane is FREE (R101, R316); a damaged word met meanwhile aborts the
command (R102). -/
def saveMove (s : State) (a : Nat) : Option State :=
  let ar := arrayOf s a
  match findPlane ar (fun x => x.state == .saving) with
  | none => none
  | some b =>
    let x := planeAt ar b
    let free := fun (s : State) => setArray s a (setPlane (arrayOf s a) b planeFree)
    match findCmd s x.key with
    | none => some (free s)
    | some c =>
      if !(unitsRun s) then none
      else match c.items[x.item]? with
        | none => some (free s)
        | some i =>
          let s1 := meetArray s c i (fun d => d.cls == 4 && d.unit == a)
          let c1 := (findCmd s1 c.key).getD c
          if mustStop c1 i then some (free (purge s1 c1))
          else some (awaitWrites (free (s1.store x.src (savedRecord c x))) c.key 7)

def execPlaneSaveComplete (a : BitVec 5) (s : State) : Host.Outcome State Fault Refusal := answer s (saveMove s a.toNat)

/-! ### Folds (R153, R154, R157) -/

/-- The FOLDING plane of an array that no fold has begun on, with its parts. -/
def waitingFolds (s : State) (a : Nat) : List (Bool × PlanePart) :=
  [false, true].flatMap (fun b =>
    let x := planeAt (arrayOf s a) b
    if x.state == .folding && !(s.folds.any (fun f => f.array == a && f.plane == b)) then x.parts.map (fun p => (b, p)) else [])

/-- A part of a FOLDING plane is done with: the plane is FREE with the last one, its tile finished. -/
def partDone (s : State) (a : Nat) (b : Bool) (c : Cmd) (x : PlanePart) : State :=
  let pl := planeAt (arrayOf s a) b
  let l := pl.parts.filter (· != x)
  putCmd (setArray s a (setPlane (arrayOf s a) b (if l.isEmpty then planeFree else { pl with parts := l }))) (setItem c x.item .done)

/-- A part of a FOLDING plane goes to its tile: discarded with a trapped command, diverted, refused by stamp, or begun once queue order, the tile's
lock and residency allow (R69, R153, R157, R167). -/
def foldBeginOne (s : State) (a : Nat) (b : Bool) (x : PlanePart) : Option State :=
  match findCmd s x.key with
  | none => some (setArray s a (setPlane (arrayOf s a) b planeFree))
  | some c =>
    match c.items[x.item]? with
    | none => none
    | some i =>
      let f := itemFold s c.desc i
      let pl := planeAt (arrayOf s a) b
      if !(unitsRun s && foldTurn s c f.1) || tileHeld s (tileKey f.1 f.2.1) then none
      else if c.trapRow.isSome then some (partDone s a b c x)
      else if (divertFor s c f.1 f.2.1).isSome || foldCheck s f.1 f.2.1 (genOf c f.1) (dStamp c.desc) != .go then
        let r := foldPlane s c i pl.count (partEntries pl x f.2.2.2)
        some (awaitWrites (partDone r.1 a b r.2 x) c.key 7)
      else (makeResident s f.1 f.2.1).map (fun s1 =>
        awaitWrites { s1 with folds := s1.folds ++ [⟨a, b, c.key, x.item, f.1, f.2.1, dStamp c.desc, genOf c f.1⟩] } c.key 7)

/-- FOLD_BEGIN (R153): the first part of a FOLDING plane whose turn it is. -/
def foldBeginMove (s : State) (a : Nat) : Option State := (waitingFolds s a).findSome? (fun x => foldBeginOne s a x.1 x.2)

def execFoldBegin (a : BitVec 5) (s : State) : Host.Outcome State Fault Refusal := answer s (foldBeginMove s a.toNat)

/-- The rows of a begun fold are added (R154), unless the group was emptied meanwhile; an error met in the plane spoils the tile (R158). -/
def foldAdd (s : State) (c : Cmd) (i : Item) (f : FoldRun) (pl : Plane) (x : PlanePart) : State × FoldOut :=
  let z := itemFold s c.desc i
  let cells := foldEntries (partEntries pl x z.2.2.2)
  let m := meetDamage s (fun d => d.cls == 4 && d.unit == f.array) (some c)
  if m.2 then (spoilTile m.1 f.group f.tile, ⟨0, stFault, c.adv⟩)
  else if (groupOf m.1 f.group).gen ≠ f.gen then foldDropped m.1 (resetStatus (groupOf m.1 f.group)) c.adv cells
  else
    let r := foldCommit m.1 c f.group f.tile c.adv cells
    (foldFlags r.1 c f.group (i.kind != .stat && longsumLimit < pl.count), r.2)

/-- FOLD_END (R154). -/
def foldEndMove (s : State) (a : Nat) : Option State :=
  match s.folds.find? (fun f => f.array == a) with
  | none => none
  | some f =>
    let s0 := { s with folds := s.folds.erase f }
    match findCmd s f.key with
    | none => some s0
    | some c =>
      let pl := planeAt (arrayOf s a) f.plane
      match c.items[f.item]?, pl.parts.find? (fun x => x.key == f.key && x.item == f.item) with
      | some i, some x =>
        if !(unitsRun s) then none
        else
          let r := foldAdd s0 c i f pl x
          some (partDone r.1 a f.plane (noteFold c r.2) x)
      | _, _ => some s0

def execFoldEnd (a : BitVec 5) (s : State) : Host.Outcome State Fault Refusal := answer s (foldEndMove s a.toNat)

/-! ### Fetch (R95, R127, R180, R181, R227) -/

/-- The streamed blocks of a stage of a tile. -/
def streamBlks (c : Cmd) (i : Item) (st : Stage) : List Blk :=
  match i.kind with
  | .stat => st.2.flatMap (fun kb => (dyOps c.desc).map (fun op => blkOf c.desc op st.1 kb i))
  | .dw => (dyOps c.desc).map (fun op => blkOf c.desc op st.1 i.c i) ++ [⟨3, 0, st.1, i.r⟩]
  | .db => (dyOps c.desc).map (fun op => blkOf c.desc op st.1 i.c i) ++ [⟨4, 0, st.1, 0⟩]

/-- The stationary blocks of a stage of a tile. -/
def weightBlks (c : Cmd) (i : Item) (st : Stage) : List Blk :=
  if i.kind == .stat then headBlks c [itemStrip c i] ++ st.2.map (fun kb => ⟨7, 0, kb, itemStrip c i⟩) else []

/-- The window the command is at: the highest of its passes, else that of its first tile to begin. -/
def windowAtWork (s : State) (c : Cmd) : Nat :=
  let ws := s.arrays.flatMap (fun p => (p.2.passes.filter (·.has c.key)).filterMap (fun x => x.stages.head?.map (·.1)))
  match ws with
  | [] => ((c.items.find? (startable c)).map (fun i => if i.kind == .stat && dOp c.desc != 5 then i.r else 0)).getD 0
  | w :: l => l.foldl max w

/-- The blocks the passes on an array want of a command: those of row groups in it and of the stage at work, and those of the stages up to two
windows ahead (R181). A saved command wants only what its drain needs. -/
def passBlks (s : State) (c : Cmd) (a : Nat) : List Blk × List Blk :=
  let ar := arrayOf s a
  (ar.passes.filter (·.has c.key)).foldl (fun acc p =>
    match (p.parts.find? (fun x => x.key == c.key)).bind (fun x => c.items[x.item]?) with
    | none => acc
    | some i =>
      let blks := fun (st : Stage) => streamBlks c i st ++ (if p.key == c.key then weightBlks c i st else [])
      let flight := (ar.groups.filter (fun g => g.key == p.key && g.item == p.item)).map (·.stage)
      let head := if c.saved && p.grp = 0 then [] else p.stages.take 1
      let next := if c.saved then [] else (p.stages.drop 1).filter (fun st => st.1 ≤ ((p.stages.head?).map (·.1)).getD 0 + 2)
      (acc.1 ++ (flight ++ head).eraseDups.flatMap blks, acc.2 ++ next.flatMap blks)) ([], [])

/-- The blocks of the next tile of the command for an array: the table and the headers its stages follow from, its first stage. -/
def nextBlks (s : State) (c : Cmd) (a : Nat) : List Blk :=
  match (c.items.mapIdx (fun k i => (k, i))).find? (fun x => startable c x.2 && x.2.array == a) with
  | none => []
  | some (k, i) =>
    let strips := if i.kind == .stat && dOp c.desc != 5 then itemStrip c i :: ((jointOf s c k i).toList.map (fun x => itemStrip c x.2)) else [itemStrip c i]
    let heads := if i.kind == .stat then headBlks c strips else []
    if heads.all (blkHeld s c (a / 4)) then
      heads ++ ((stagesOf s c i strips).take 1).flatMap (fun st => streamBlks c i st ++ weightBlks c i st)
    else heads

/-- The predictor's blocks of the next tile it decides on, on the core of that tile (R217). -/
def predictBlks (s : State) (c : Cmd) (core : Nat) : List Blk :=
  let cols := if dOp c.desc = 4 then pJ c.desc else pI c.desc
  let x := c.fetched / cols
  let y := c.fetched % cols
  let me := c.items.any (fun i => i.array / 4 == core && i.c == y && i.r == x)
  if guardReady s c || c.saved || !me then []
  else if dOp c.desc = 4 then
    (List.range (pV c.desc)).flatMap (fun v => (dyOps c.desc).map (fun op => (⟨op, 63, v, y⟩ : Blk)) ++ [⟨3, 63, v, x⟩, ⟨0, 63, v, 0⟩])
  else
    ⟨0, 63, x, 0⟩ :: (List.range (pJ c.desc)).flatMap (fun kb => (dyOps c.desc).map (fun op => (⟨op, 63, x, kb⟩ : Blk))) ++
      headBlks c [y] ++ (List.range (pJ c.desc)).map (fun kb => ⟨7, 63, kb, y⟩)

/-- The blocks a core wants for the screen: of the next window, or of every window for the predictor (R187, R217). -/
def screenWants (s : State) (c : Cmd) (core : Nat) : List Blk :=
  let w := c.screened / 256
  if c.screened < pM c.desc && (w ≤ windowAtWork s c + 2 || !(guardReady s c)) then
    ((screenBlks c w).filter (fun x => x.1 == core)).map (·.2) else []

/-- All a core wants of a command: what it cannot do without, and what it reads ahead. -/
def coreWants (s : State) (c : Cmd) (core : Nat) : List Blk × List Blk :=
  let as := (List.range 4).map (fun j => 4 * core + j)
  let ps := as.map (passBlks s c)
  let busy := fun a => (arrayOf s a).passes.any (fun p => p.has c.key && !p.stages.isEmpty)
  let may := !c.saved && guardReady s c
  let now := if may then (as.filter (fun a => !(busy a))).flatMap (nextBlks s c) else []
  let soon := if may then (as.filter busy).flatMap (nextBlks s c) else []
  (ps.flatMap (·.1) ++ now ++ (if c.saved then [] else screenWants s c core) ++ predictBlks s c core, ps.flatMap (·.2) ++ soon)

/-- Whether a held part is a block of the unit a lane of a PAIR is in: its dY′ cache (R127). -/
def cachedPart (s : State) (c : Cmd) (part : Nat) : Bool :=
  let op := part % 8
  let lane := part / 8 % 64
  let y := tget (0, 0) s.dyCache (lane - 1)
  dOp c.desc == 5 && (op == 1 || op == 2) && lane != 0 && lane != 63 && y.1 == c.key + 1 && y.2 / 2 == part / 512 % 2 ^ 16

/-- Drop what a core holds of a command and wants no more; a used window of the saved operand takes no space beside the dY′ formed from it. -/
def trimCore (s : State) (c : Cmd) (core : Nat) (wants : List Nat) : State :=
  let mine := fun (e : Staged) => e.key == c.key && e.core == core && !(wants.contains e.part)
  let kept := fun (e : Staged) => e.part % 8 == 5 || e.part % 8 == 6 || (e.part / 8 % 64 == 63 && !(guardReady s c)) || cachedPart s c e.part
  let s1 := dropStaged s (fun e => mine e && !(kept e) && !(partWaits s c.key core e.part))
  { s1 with staged := s1.staged.map (fun e => if mine e && e.part % 8 == 2 then { e with size := 0 } else e) }

/-- Whether `n` more bytes fit a core's stage buffer. -/
def roomFor (s : State) (core n : Nat) : Bool := stageUsed s core + n ≤ stageSpace s core

/-- Make room for `n` bytes: LOADW copies go first, then what saved commands hold; for a block that cannot wait also what the command can read again
(R195, R303). -/
def makeSpace (s : State) (c : Cmd) (core n : Nat) (must : Option (List Nat)) : State :=
  let try' := fun (s : State) (p : Staged → Bool) => if roomFor s core n then s else dropStaged s (fun e => e.core == core && p e && !(partWaits s e.key core e.part))
  let s1 := try' s (fun e => e.key == copyKey && e.part != pW c.desc)
  let s2 := try' s1 (fun e => (findCmd s e.key).any (·.saved) && e.key != c.key)
  match must with
  | none => s2
  | some keep => try' s2 (fun e => e.key == c.key && !(keep.contains e.part) && e.part % 8 != 5 && e.part % 8 != 6)

/-- Ask for the first wanted block of a core that fits. A block only the screen wants passes through it where no room is left. -/
def fetchCore (s : State) (c : Cmd) (core : Nat) : Option State :=
  let w := coreWants s c core
  let must := w.1.map Blk.code
  let s1 := trimCore s c core (must ++ w.2.map Blk.code)
  let ask := fun (b : Blk) (hard : Bool) =>
    if blkAsked s1 c core b then none
    else
      let s2 := makeSpace s1 c core (blkSize s1 c core b) (if hard then some must else none)
      if roomFor s2 core (blkSize s2 c core b) then some (askBlk s2 c core b)
      else if hard && (screenWants s c core).contains b && 1 ≤ b.op && b.op ≤ 4 then
        let t := askBlk s2 c core b
        some { t with staged := t.staged.map (fun e => if e.key == c.key && e.core == core && e.part == b.code then { e with size := 0 } else e) }
      else none
  (w.1.findSome? (fun b => ask b true)).orElse (fun _ => w.2.findSome? (fun b => ask b false))

/-- Take the ledger view where none is held yet, as the first row fetch needs it (R227). -/
def takeView (s : State) (c : Cmd) : Option State :=
  if takesView c.desc && c.view.isNone then
    if viewReady s c then some (putCmd s { c with view := some s.ledger }) else none
  else none

/-- TROWEL_FETCH (R180, R181, R195): the next reads of the command, core by core; the ledger view comes first (R227). -/
def fetchMove (s : State) (key : Nat) : Option State :=
  match findCmd s key with
  | none => none
  | some c =>
    if !(unitsRun s && isProduct c.desc && c.phase == .started && !(heldBack s c) && c.errs.isEmpty && c.trapRow.isNone) then none
    else if takesView c.desc && c.view.isNone then takeView s c
    else
      let cores := (c.items.map (fun i => i.array / 4)).eraseDups
      (cores.findSome? (fetchCore s c)).map (fun t => rowsArrived t key)

def execTrowelFetch (r : CmdRef) (s : State) : Host.Outcome State Fault Refusal := answer s (fetchMove s (refKey r))

/-- TROWEL_STORE (R189 to R191): what can be written of the command's output now. -/
def storeMove (s : State) (key : Nat) : Option State :=
  match findCmd s key with
  | none => none
  | some c =>
    if unitsRun s && pStores c.desc && isProduct c.desc && c.phase == .started && !(heldBack s c) then
      match storeRun s c with
      | [] => none
      | p :: l =>
        let x := storeElems s c (p :: l)
        some (awaitWrites (putCmd x.1 x.2) key (storeCore s c p.1 p.2))
    else none

def execTrowelStore (r : CmdRef) (s : State) : Host.Outcome State Fault Refusal := answer s (storeMove s (refKey r))

/-! ### Preemption (R101, R129, R315, R316) -/

/-- Whether `c` preempts `v`: a lower class number, `v` of class 2 or 3 holding a lane a tile of `c` is dealt to, no other command saved at its
depth. -/
def preempts (s : State) (c v : Cmd) : Bool :=
  isProduct v.desc && v.phase == .started && !v.saved && classOf s c.q < classOf s v.q && 2 ≤ classOf s v.q &&
    !(s.cmds.any (fun x => x.saved && classOf s x.q == classOf s v.q)) &&
    c.items.any (fun i => startable c i && holdsLane s v i.array)

/-- The arrays that hold work of a command. -/
def heldArrays (s : State) (key : Nat) : Nat :=
  (List.range 24).foldl (fun m a =>
    let ar := arrayOf s a
    if ar.passes.any (·.has key) || [ar.planeA, ar.planeB].any (fun x => x.state != .free && x.key == key) then m + 2 ^ a else m) 0

/-- The PREEMPT record: code 0 at the preemption, 1 at the resumption, with the arrays held (R435). -/
def preemptTrace (s : State) (code : Nat) (v : Cmd) : State := trace s 2 code v.q (saveDepth s v) v.seq (heldArrays s v.key) 0

/-- Bytes of a context record (R316). -/
def contextBytes : Nat := 0x10000

/-- Where a command's context record lies (R316). -/
def contextAddr (s : State) (c : Cmd) : Nat := rd s cmdSaveBaseAddr + 0x2800000 + saveDepth s c * contextBytes

/-- Park every pass of a saved command that stands at a boundary (R101). -/
def parkAll (s : State) (key : Nat) : State :=
  (List.range 24).foldl (fun s a =>
    (arrayOf s a).passes.foldl (fun s p =>
      if p.has key && !(halfway s a p) && (arrayOf s a).passes.any (· == p) then (parkLane s a p).getD s else s) s) s

/-- The hod tiles of a saved command go to the save area (R129, R316). -/
def saveHods (s : State) (c : Cmd) : State :=
  (s.hod.filter (fun t => t.key == c.key && t.src == 0)).foldl (fun s t =>
    let x := saveHod s c t
    { x.1 with hod := x.1.hod.map (fun y => if y == t then x.2 else y) }) s

/-- Preempt a command as a whole, with those of its row window: its lanes drain to a boundary and save, its hod tiles and its context record go to
the save area, its dY′ caches go (R101, R114, R129, R316). What the private context record holds is not described: free values. -/
def preemptCmd (s : State) (v : Cmd) : State :=
  (mates s v).foldl (fun s m =>
    let s1 := preemptTrace (bump (modCmd s m.key (fun c => { c with saved := true })) cmdPreemptsCount 1) 0 m
    let m1 := (findCmd s1 m.key).getD m
    let s2 := freeRun (saveHods s1 m1) (contextAddr s1 m1, contextBytes)
    parkAll { s2 with dyCache := s2.dyCache.filter (fun p => p.2.1 != m.key + 1) } m.key) s

/-- Preempt a command and send what it saves at once. -/
def preemptAway (s : State) (v : Cmd) : State :=
  let t := awaitWrites (preemptCmd { s with wbuf := [] } v) v.key 7
  { t with wbuf := t.wbuf ++ s.wbuf }

/-- PREEMPT by the ready product command named (R315), of one victim. -/
def preemptMove (s : State) (key : Nat) : Option State :=
  match findCmd s key with
  | none => none
  | some c =>
    if arraysMay s c && !c.saved && rd s cmdSaveBaseAddr != 0 then
      (s.cmds.find? (preempts s c)).map (preemptAway s)
    else none

/-- PREEMPT: at most one command of class 3 and one of class 2 (R315). -/
def execPreempt (r : CmdRef) (s : State) : Host.Outcome State Fault Refusal :=
  match preemptMove s (refKey r) with
  | none => .next s
  | some t => answer (settle s t) (some ((preemptMove (settle s t) (refKey r)).getD (settle s t)))

/-- Bring one image of a command back to its array: the plane LOADING from its record in the save area, the pass behind those of the array (R101). -/
def bringBack (s : State) (x : Saved) : Option State :=
  let ar := arrayOf s x.array
  let withPass := fun (ar : ArraySt) => { ar with passes := ar.passes ++ x.pass.toList }
  match x.plane with
  | none => some (setArray s x.array (withPass ar))
  | some y =>
    (findPlane ar (fun z => z.state == .free)).map (fun b =>
      askReads (setArray s x.array (withPass (setPlane ar b { y with state := .loading, loaded := false }))) x.key 7 (savePart y.src)
        [(y.src, planeBytes)])

/-- The images of a saved command come back, or none of them. -/
def bringAll (s : State) (xs : List Saved) : Option State := xs.foldl (fun o x => o.bind (fun s => bringBack s x)) (some s)

/-- Whether a saved command may resume: it has left the arrays, its images written, its lanes free of other work, no descent under way (R101, R315, R357). -/
def resumeReady (s : State) (c : Cmd) : Bool :=
  unitsRun s && c.saved && c.phase == .started && (s.power.state == .active || s.power.state == .rampUp) && offLanes s c && !(writesPending s c.key) &&
    s.arrays.all (fun p => [p.2.planeA, p.2.planeB].all (fun x => x.key != c.key || x.state != .saving)) &&
    c.items.all (fun i => i.st == .done || ((arrayOf s i.array).passes.all (fun p => p.stages.isEmpty) &&
      s.cmds.all (fun e => e.key == c.key || !(holdsLane s e i.array)))) &&
    hodUsed s + (s.hod.filter (fun t => t.key == c.key)).length ≤ 16

/-- The command is at work again: counted, traced, its context record and hod tiles read back; its row fetches begin anew (R181, R315). -/
def unsave (s : State) (m : Cmd) : State :=
  let s1 := modCmd (dropStaged s (fun e => e.key == m.key && e.core < 7 && !(partWaits s m.key e.core e.part))) m.key (fun c => { c with saved := false })
  let s2 := (s1.hod.filter (fun t => t.key == m.key)).foldl (fun s t => askReads s m.key 7 (savePart t.src) [(t.src, planeBytes)]) s1
  let s3 := askReads s2 m.key 7 (savePart (contextAddr s m)) [(contextAddr s m, contextBytes)]
  preemptTrace (bump s3 cmdPreemptsResumes 1) 1 m

/-- COMMAND_RESUME: the preempted command's images load and its passes go on from the K-block they were saved at (R101, R315). -/
def resumeMove (s : State) (key : Nat) : Option State :=
  match findCmd s key with
  | none => none
  | some c =>
    let ms := mates s c
    if ms.all (resumeReady s) then
      (bringAll s (s.images.filter (fun x => ms.any (fun m => m.key == x.key)))).map (fun t =>
        ms.foldl unsave { t with images := t.images.filter (fun x => !(ms.any (fun m => m.key == x.key))) })
    else none

def execCommandResume (r : CmdRef) (s : State) : Host.Outcome State Fault Refusal := answer s (resumeMove s (refKey r))

/-! ### The watchdog (R106) -/

/-- Whether a patch is stalled: work of a pass is before it and it does not hold what that needs (R103). -/
def patchStalled (s : State) (a n : Nat) : Bool :=
  let ar := arrayOf s a
  match nextRowGroup s ar n with
  | some g => match ar.passes.find? (fun p => p.key == g.key && p.item == g.item), grpCmd s g with
    | some p, some (c, i) => !(patchReady s a n g p c i)
    | _, _ => false
  | none => ar.passes.any (fun p => !p.stages.isEmpty && (passCmd s p).any (fun x => patchUsed s x.1 x.2 n))

/-- STARVE: a patch has been stalled for LIMIT_MS; the event is recorded once until the patch works again. -/
def starveMove (s : State) (a n : Nat) : Option State :=
  let ar := arrayOf s a
  let core := a / 4
  if rd s (corWdogCtlLimitMs core) != 0 && patchStalled s a n && !(ar.starved.contains n) then
    let s1 := setArray s a { ar with starved := n :: ar.starved }
    let s2 := wr (wr s1 (corWdogStatArray core) (a % 4)) (corWdogStatPatch core) n
    some (setEvt (bump s2 (corWdogStatEvents core) 1) (evStarve core))
  else none

def execStarve (a : BitVec 5) (patch : BitVec 8) (s : State) : Host.Outcome State Fault Refusal := answer s (starveMove s a.toNat patch.toNat)

/-! ### The end of a product, and a product run as far as it goes -/

/-- Whether every tile of a command is finished, skipped, or never will be (R131, R219). -/
def tilesOver (c : Cmd) : Bool :=
  c.items.all (fun i => i.st == .done || mustStop c i || chainBroken c i || (i.st == .todo && itemSkipped c i))

/-- The end of a product command: nothing of it is in flight and nothing is left to store (R32, R314). -/
def endMove (s : State) (key : Nat) : Option State :=
  match findCmd s key with
  | none => none
  | some c =>
    if !(unitsRun s && isProduct c.desc && c.phase == .started && !c.saved && !(heldBack s c) && guardReady s c) then none
    else
      let s1 := purge s c
      let c1 := (findCmd s1 key).getD c
      let stored := !(pStores c1.desc) || ((storeRun s1 c1).isEmpty && ((outWaiting c1).isEmpty || !(writesPending s1 key)))
      if tilesOver c1 && noneInFlight s1 key && stored then some (awaitWrites (finishProduct s1 c1) key 7)
      else if s1 == s then none else some s1

/-- A move of an array: what finishes work before what begins it. -/
def arrayMove (s : State) (a : Nat) : Option State :=
  foldEndMove s a <|> relayMove s a <|> (List.range 256).findSome? (patchMove s a) <|> foldBeginMove s a <|> loadMove s a <|> saveMove s a <|>
    issueMove s a <|> slotMove s a

/-- The arrays that have to do with a command: its own, and those of saved commands, which drain for it. -/
def arraysOf (s : State) (c : Cmd) : List Nat :=
  (List.range 24).filter (fun a => c.items.any (fun i => i.array == a) || (arrayOf s a).passes.any (·.has c.key) ||
    s.cmds.any (fun v => v.saved && v.items.any (fun i => i.array == a)))

/-- A move of a product command. -/
def productMove (s : State) (key : Nat) : Option State :=
  match findCmd s key with
  | none => none
  | some c =>
    if c.phase != .started || c.saved then none
    else (arraysOf s c).findSome? (arrayMove s) <|> hodMove s <|> storeMove s key <|> fetchMove s key <|>
      s.cmds.findSome? (fun v => if v.saved then fetchMove s v.key else none) <|> endMove s key

/-- Moves of a product command until it waits for something outside its arrays. -/
def productRun (key : Nat) : Nat → State → State
  | 0, s => s
  | n + 1, s => match productMove s key with
    | none => s
    | some t => productRun key n (settle s t)

/-- A bound on the moves of a command. -/
def productFuel (c : Cmd) : Nat := (c.items.length + 1) * (pV c.desc + pJ c.desc + 1) * 2 ^ 18

/-- A product's own row: its lanes and loaders run as far as they can, in moves each of which a row of the table also makes alone (DESIGN CHOICE,
log 10). -/
def execProduct (op : Nat) (r : CmdRef) (s : State) : Host.Outcome State Fault Refusal :=
  match findCmd s (refKey r) with
  | some c => if isOp op c then .next (productRun (refKey r) (productFuel c) s) else .next s
  | none => .next s

def execPlain (r : CmdRef) (s : State) : Host.Outcome State Fault Refusal := execProduct 0x02 r s
def execDx (r : CmdRef) (s : State) : Host.Outcome State Fault Refusal := execProduct 0x03 r s
def execDw (r : CmdRef) (s : State) : Host.Outcome State Fault Refusal := execProduct 0x04 r s
def execPair (r : CmdRef) (s : State) : Host.Outcome State Fault Refusal := execProduct 0x05 r s

end Sys2Proof.Machine
end

