-- ==== Sys2Proof/Machine/Sieve.lean ====
section
/-! DEFINITION. The Sieve (08 R216 to R220): the predictor, the skip certificate, the decisions and the report. -/

namespace Sys2Proof.Machine

/-- Whether a command may be guarded (R216). One with WAIT = 1 would wait for the SIEVE that waits for it: its WAIT counts as a fence between the
two (DESIGN CHOICE, log 76). -/
def guardable (d : List Byte) : Bool := (dOp d == 2 || dOp d == 3 || dOp d == 4) && !(dPack d) && !(dWait d)

/-- The descriptor of the command after `c` in its queue, once it is fetched or started. -/
def nextDesc (s : State) (c : Cmd) : Option (List Byte) :=
  match findCmd s (c.q * 2 ^ 32 + (c.seq + 1) % 2 ^ 32) with
  | some n => some n.desc
  | none => ((queueOf s c.q).fetched.find? (fun f => f.seq == (c.seq + 1) % 2 ^ 32)).bind (·.desc)

/-- SIEVE: guards the next command of its queue, or ends with BAD_SEQ (R216); until the next command is fetched it waits, unless its queue
drains and none will be (log 23). -/
def execSieve (r : CmdRef) (s : State) : Host.Outcome State Fault Refusal :=
  match findCmd s (refKey r) with
  | some c =>
    if runnable s c && isOp 0x10 c then
      match nextDesc s c with
      | none => if (queueOf s c.q).state == .draining then .next (settle s (endCmd s c.key stBadSeq 0 0)) else .next s
      | some d =>
        if guardable d then .next (settle s (modCmd s c.key (fun c => { c with phase := .begun })))
        else .next (settle s (endCmd s c.key stBadSeq 0 0))
    else .next s
  | none => .next s

/-! ### Operands along K -/

/-- One line of an operand along K: the values at each position, none where an element is absent, two where the metadata of a 2:4 tile names a
position twice (R204). -/
abbrev KLine := List (List Val)

/-- The stationary line of output `o` over the whole K range. -/
def statLine (s : State) (c : Cmd) (o : Nat) : KLine :=
  (List.range (pJ c.desc)).flatMap (fun kb =>
    let cells := (statCells s c kb o).flatten
    (List.range (min 256 (pKExt c.desc - 256 * kb))).map (fun q =>
      (cells.filter (fun x => x.1 == 256 * kb + q)).map (·.2)))

/-- The lines of both operands of output tile (a, b): streamed rows and stationary outputs, or the columns of X and of
dY′ with the rows as K, absent where a row takes no part (R217, R218). -/
def tileLines (s : State) (c : Cmd) (a b : Nat) : List KLine × List KLine :=
  let d := c.desc
  if dOp d = 4 then
    let rows := List.range (pM d)
    let x := xLay s d
    let line := fun (f : Nat → Val) => rows.map (fun r => if rowPart c r then [f r] else [])
    ((List.range (min 256 (pNExt d - 256 * a))).map (fun i => line (fun r => streamVal s c x r (256 * a + i))),
      (List.range (min 256 (pKExt d - 256 * b))).map (fun q => line (fun r => (dyPrime s c r (256 * b + q)).1)))
  else
    let rows := ((List.range (min 256 (pM d - 256 * a))).map (256 * a + ·)).filter (rowPart c)
    (rows.map (fun r => (List.range (pKExt d)).map (fun q => [(dyPrime s c r q).1])),
      (List.range (min 256 (pNExt d - 256 * b))).map (fun o => statLine s c (256 * b + o)))

/-- k of the exact pass. -/
def exactK (s : State) (c : Cmd) : Nat := if dOp c.desc = 4 then outerK s c (xLay s c.desc) else statK s c

/-! ### The predictor (R217) -/

/-- The sketch of a line: exact sums of `g` elements stored as MXFP4 in blocks of 32. -/
def sketch (g : Nat) (l : KLine) : List Val :=
  let sums := (chunksOf g l).map (fun ch => sumVals ch.flatten)
  (chunksOf 32 sums).flatMap (fun b =>
    let q := mxBlock ⟨.e2m1, true, .rne, false, ⟨0, 0, 0, 0⟩⟩ (b.map (fun v => (0, v)))
    q.2.1.map (fun raw => elemVal ⟨.e2m1, true, 0⟩ q.1 raw))

/-- The largest magnitude of the sketch product: none when an entry is NaN (R217). -/
def estimate (s : State) (c : Cmd) (p : List KLine × List KLine) : Option Val :=
  let g := if exactK s c = 1 then 1 else 2 * exactK s c
  let bs := p.2.map (sketch g)
  let es := (p.1.map (sketch g)).flatMap (fun x => bs.map (fun y =>
    af48Val (canonicalSum 0 ((chunksOf 8 (x.zip y)).map (fun st => st.map (fun z => mulVal z.1 z.2))))))
  if es.any Val.isNaN then none else some (es.foldl (fun m v => maxVal m (absVal v)) (.fin false 0 0))

/-- A power of two as a value. -/
def pow2Val (e : Int) : Val := .fin false 1 e

/-- Whether the estimate makes the tile a candidate. -/
def isCandidate (pred : Nat) (e : Option Val) : Bool :=
  match e with
  | none => false
  | some v => !(leVal (pow2Val (signedOf pred 8)) v)

/-! ### The certificate (R218) -/

/-- A bound exponent: −∞, a number or +∞. -/
inductive UExp where
  | low
  | fin (e : Int)
  | high
  deriving DecidableEq, Repr

def UExp.max : UExp → UExp → UExp
  | .high, _ => .high
  | _, .high => .high
  | .low, b => b
  | a, .low => a
  | .fin a, .fin b => .fin (if a ≤ b then b else a)

/-- The bound exponent of one element, and of a block; where two values share a position the sum of their magnitudes counts, so that C bounds both
products (DEDUCED, log 23). -/
def valU (v : Val) : UExp :=
  if v.nonFinite then .high else match floorLog2 v with
    | none => .low
    | some e => .fin (e + 1)

def blockU (l : KLine) : UExp := l.foldl (fun u v => u.max (valU (sumVals (v.map absVal)))) .low

/-- The largest bound exponent of block `b` over the lines. -/
def linesU (ls : List KLine) (b : Nat) : UExp := ls.foldl (fun u l => u.max (blockU ((l.drop (32 * b)).take 32))) .low

/-- One term of the certificate; −∞ with +∞ is NaN and counts as +Inf. -/
def certTerm (n : Nat) : UExp → UExp → Val
  | .high, _ => .inf false
  | _, .high => .inf false
  | .low, _ => .fin false 0 0
  | _, .low => .fin false 0 0
  | .fin a, .fin b => b64Up (.fin false n (a + b))

/-- The certificate C of a tile with K positions `k`. -/
def certificate (p : List KLine × List KLine) (k : Nat) : Val :=
  (List.range (ceilDiv k 32)).foldl (fun c b =>
    b64Up (sumVals [c, certTerm (min 32 (k - 32 * b)) (linesU p.1 b) (linesU p.2 b)])) (.fin false 0 0)

/-! ### Decisions and the report (R219, R220) -/

/-- What is decided on a tile: its mark and its certificate. -/
def decideTile (s : State) (c : Cmd) (a b : Nat) : SieveMark × Val :=
  let p := tileLines s c a b
  let k := if dOp c.desc = 4 then pM c.desc else pKExt c.desc
  let ok := dOp c.desc == 4 || (List.range (pJ c.desc)).all (fun kb => statTileOk s c kb b)
  if ok && isCandidate c.lat.predExp (estimate s c p) then
    let z := certificate p k
    (if leVal z (pow2Val (signedOf c.lat.tolExp 8)) then .skipped else .makeup, z)
  else (.compute, .fin false 0 0)

/-- The output tiles of the guarded command: rows and columns of its tile grid. -/
def sieveGrid (c : Cmd) : Nat × Nat :=
  if dOp c.desc = 4 then (pI c.desc, pJ c.desc) else (pV c.desc, pI c.desc)

/-- The report (R220). -/
def sieveReport (s : State) (stamp tiles cand skip made : Nat) (mass cmax : Val) : List Byte :=
  natLE 0x53565250 4 ++ natLE stamp 4 ++ natLE tiles 4 ++ natLE cand 4 ++ natLE skip 4 ++ natLE made 4 ++
    natLE (encodeRNE ffB64 mass) 8 ++ natLE (encodeRNE ffB64 cmax) 8 ++ natLE (now s) 8 ++ zeros 16

/-- The skip map of `n` tiles (R220). -/
def sieveMap (n : Nat) (ms : List SieveMark) : List Byte :=
  natLE ((ms.zip (List.range ms.length)).foldl (fun a m => if m.1 == .skipped then a + 2 ^ m.2 else a) 0) (ceilDiv n 8)

/-- The certificates' sum and maximum so far stand beside the SIEVE as binary64. -/
def massKey : Nat := 0
def cmaxKey : Nat := 1

/-- Write the report and the map, count, and end the SIEVE. -/
def sieveFinish (s : State) (sv gc : Cmd) : State :=
  let g := sieveGrid gc
  let ms := (List.range gc.fetched).map (fun n => tget SieveMark.compute gc.sieve n)
  let cnt := fun m => (ms.filter (fun x => x == m)).length
  let cand := cnt .skipped + cnt .makeup
  let s := bump (bump s sivSieveTilesExamined ms.length) sivSieveTilesCandidates cand
  let s := bump (bump s sivSieveCountSkipped (cnt .skipped)) sivSieveCountMadeup (cnt .makeup)
  let s := s.store (dNum sv.desc 0x20 8) (sieveReport s (dStamp gc.desc) ms.length cand (cnt .skipped) (cnt .makeup)
    (decodeFloat ffB64 (tget 0 sv.aux massKey)) (decodeFloat ffB64 (tget 0 sv.aux cmaxKey)))
  let s := if dNum sv.desc 0x28 8 = 0 then s else s.store (dNum sv.desc 0x28 8) (sieveMap (g.1 * g.2) ms)
  endCmd s sv.key stOK 0 0

/-- Whether an item is tile (x, y) of the grid the Sieve decides on. -/
def isTile (x y : Nat) (i : Item) : Bool := i.r == x && i.c == y

/-- A tile is skipped: it makes no fold; its elements of an output in memory are +0 (R219). -/
def skipTile (c : Cmd) (x y : Nat) : Cmd :=
  let zero := fun (aux : List (Nat × Nat)) =>
    (List.range (windowRows c x)).foldl (fun l r => (List.range (min 256 (pNExt c.desc - 256 * y))).foldl (fun l q =>
      tins l (auxKey (256 * x + r) (256 * y + q)) 0) l) aux
  { c with
    items := c.items.map (fun i => if isTile x y i then { i with st := .done } else i)
    aux := if pStores c.desc then zero c.aux else c.aux }

/-- The tiles queued for make-up come after the others, dealt anew by the same rules (R219). -/
def dealMakeup (s : State) (c : Cmd) : Cmd :=
  let g := sieveGrid c
  let mk := fun (i : Item) => tget SieveMark.compute c.sieve (i.r * g.2 + i.c) == .makeup
  let l := c.items.filter mk
  let kind : ItemKind := if dOp c.desc = 4 then .dw else .stat
  { c with items := c.items.filter (fun i => !(mk i)) ++
      dealTiles kind (lanes s (pSingles c.desc)) (l.length + 1) 0 (l.map (fun i => if dOp c.desc = 4 then (i.c, i.r) else (i.r, i.c))) }

/-- The decision on tile number `n` of the guarded command (R217 to R219). -/
def decideNext (s : State) (sv gc : Cmd) : State :=
  let g := sieveGrid gc
  let n := gc.fetched
  let x := n / g.2
  let y := n % g.2
  let core := ((gc.items.find? (isTile x y)).map (fun i => i.array / 4)).getD 0
  let d := decideTile (coreView s gc core) gc x y
  let gc1 := { gc with fetched := n + 1, sieve := tput SieveMark.compute gc.sieve n d.1 }
  let gc2 := if d.1 == .skipped then skipTile gc1 x y else gc1
  let add := fun (aux : List (Nat × Nat)) (k : Nat) (f : Val → Val) => tput 0 aux k (encodeRNE ffB64 (f (decodeFloat ffB64 (tget 0 aux k))))
  let sv1 := if d.1 == .skipped then
      { sv with aux := add (add sv.aux massKey (fun m => b64Up (sumVals [m, d.2]))) cmaxKey (fun m => maxVal m d.2) } else sv
  if n + 1 = g.1 * g.2 then sieveFinish (putCmd (putCmd s (dealMakeup s gc2)) sv1) sv1 gc2
  else putCmd (putCmd s gc2) sv1

/-- Whether what the next tile's decision needs is at hand: its rows screened, the predictor's blocks of it held, the lanes the command's (R217). -/
def decideReady (s : State) (gc : Cmd) : Bool :=
  let g := sieveGrid gc
  let x := gc.fetched / g.2
  let core := ((gc.items.find? (isTile x (gc.fetched % g.2))).map (fun i => i.array / 4)).getD 0
  unitsRun s && arrayPower s && !gc.saved && !(heldBack s gc) && (lanesBegun s gc || lanesFree s gc) &&
    (if dOp gc.desc = 4 then gc.screened == pM gc.desc else min (256 * x + 256) (pM gc.desc) ≤ gc.screened) &&
    (predictBlks s gc core).all (blkHeld s gc core)

/-- SIEVE_DECISION of the SIEVE command named (R219, R220): the next tile of the guarded command, whose predictor it runs. A command that has ended,
failed or trapped leaves no report (R217). -/
def sieveMove (s : State) (key : Nat) : Option State :=
  match findCmd s key with
  | none => none
  | some sv =>
    match s.cmds.find? (fun c => c.guard == some sv.key) with
    | none => none
    | some gc =>
      if !(unitsRun s && isOp 0x10 sv && (sv.phase == .started || sv.phase == .begun)) then none
      else if gc.trapRow.isSome || !gc.errs.isEmpty then some (endCmd s key stOK 0 0)
      else if gc.phase != .started then some (awaitWrites (sieveFinish s sv gc) key 7)
      else if decideReady s gc then
        let i := (gc.items.find? (isTile (gc.fetched / (sieveGrid gc).2) (gc.fetched % (sieveGrid gc).2))).getD ⟨.stat, 0, 0, 0, 0, .todo⟩
        let s1 := meetArray s gc i (fun d => arrayDamage i.array false d || cmdDamage gc d)
        let gc1 := (findCmd s1 gc.key).getD gc
        some (if gc1.errs.isEmpty then awaitWrites (decideNext s1 sv gc1) key 7 else s1)
      else none

def execSieveDecision (r : CmdRef) (s : State) : Host.Outcome State Fault Refusal := answer s (sieveMove s (refKey r))

end Sys2Proof.Machine
end

