-- ==== Sys2Proof/Machine/Rsu.lean ====
section
/-! DEFINITION. The reduction staging unit (10 R247 to R271): jobs, packets, SEND and RECV, receive contexts, digests. -/

namespace Sys2Proof.Machine

/-! ### Job records (R247 to R249) -/

structure Job where
  id     : Nat
  shards : Nat
  mine   : Nat
  backup : Bool
  tiles  : Nat
  rows   : Nat
  cols   : Nat
  peers  : Nat
  res    : Nat
  wrec0  : Nat
  wrec1  : Nat
  deriving DecidableEq, Repr

def parseJob (b : List Byte) : Job :=
  { id := fieldAt b 0x06 2, shards := fieldAt b 0x08 2, mine := fieldAt b 0x0A 2, backup := bitOf (fieldAt b 0x0C 1) 0,
    tiles := fieldAt b 0x10 4, rows := fieldAt b 0x14 4, cols := fieldAt b 0x18 4, peers := fieldAt b 0x20 8,
    res := fieldAt b 0x28 8, wrec0 := fieldAt b 0x30 8, wrec1 := fieldAt b 0x38 8 }

/-- The record of working copy `p` (R247). -/
def Job.wrec (j : Job) (p : Nat) : Nat := if p = 0 then j.wrec0 else j.wrec1

/-- The job record a SEND or RECV read at its start. -/
def jobOf (s : State) (c : Cmd) : Job := parseJob (recOf s c (dNum c.desc 0x20 8) 128)

/-- The Chrodor chip number of a rank (R248). -/
def peerChip (s : State) (j : Job) (rank : Nat) : Nat := s.num (j.peers + 8 * rank) 2

/-- The first tile of shard `r`, and its tiles (R249). -/
def shardFirst (j : Job) (r : Nat) : Nat := r * j.tiles / j.shards
def shardTiles (j : Job) (r : Nat) : List Nat :=
  (List.range (shardFirst j (r + 1) - shardFirst j r)).map (shardFirst j r + ·)

/-- Rows and columns of tile `t` inside a rows × cols tensor, and its place in the grid. -/
def tileExtent (rows cols t : Nat) : Nat × Nat :=
  (min 256 (rows - 256 * (t / ceilDiv cols 256)), min 256 (cols - 256 * (t % ceilDiv cols 256)))
def tileRow0 (cols t : Nat) : Nat := 256 * (t / ceilDiv cols 256)
def tileCol0 (cols t : Nat) : Nat := 256 * (t % ceilDiv cols 256)

/-! ### Descriptor fields (R251, R304) -/

def rsPeer (d : List Byte) : Nat := bitsOf (dNum d 0x30 2) 0 12
def rsGroup (d : List Byte) : Nat := bitsOf (dNum d 0x32 1) 0 6
def rsMode (d : List Byte) : Nat := bitsOf (dNum d 0x33 1) 0 2
def rsThin (d : List Byte) : Bool := bitOf (dNum d 0x33 1) 2
def rsEmpty (d : List Byte) : Bool := bitOf (dNum d 0x33 1) 3
def rsFinal (d : List Byte) : Bool := bitOf (dNum d 0x33 1) 4
def rsRzero (d : List Byte) : Bool := bitOf (dNum d 0x33 1) 5
def rsDigests (d : List Byte) : Nat := dNum d 0x28 8

/-! ### Packets (R252 to R254) -/

def pfLast : Nat := 2
def pfSparse : Nat := 4
def pfLocal : Nat := 8
def pfEmpty : Nat := 16
def pfFinal : Nat := 32
def pfPoison : Nat := 64

/-- One packet's payload: tile, first row, rows, bytes, and the FLAGS it brings. -/
structure Piece where
  tile    : Nat
  row     : Nat
  nrows   : Nat
  payload : List Byte
  flags   : Nat
  deriving DecidableEq, Repr

/-- What the packets of one contribution share. -/
structure Contrib where
  dest  : Nat
  kind  : Nat
  job   : Nat
  step  : Nat
  shard : Nat
  src   : Nat
  fmt   : Nat
  flags : Nat
  deriving DecidableEq, Repr

/-- A packet: the 64-byte header and the payload (R252). -/
def packetBytes (s : State) (x : Contrib) (p : Piece) (seq npkt digest : Nat) : List Byte :=
  let chip := rd s glbStrapsChipNum
  let last := seq + 1 == npkt
  natLE x.dest 2 ++ natLE chip 2 ++ natLE x.kind 1 ++
    natLE (x.flags ||| p.flags ||| flagIf last pfLast ||| flagIf (x.dest == chip) pfLocal) 1 ++ natLE x.job 2 ++
    natLE x.step 4 ++ natLE x.shard 2 ++ natLE x.src 2 ++ natLE seq 4 ++ natLE npkt 4 ++ natLE p.tile 4 ++
    natLE p.row 2 ++ natLE p.nrows 2 ++ natLE x.fmt 1 ++ natLE 0 1 ++ natLE p.payload.length 2 ++ natLE 0 4 ++
    natLE (if last then digest else 0) 8 ++ natLE (now s) 8 ++ natLE 0 8 ++ p.payload

/-- The F-port a packet leaves on: the chosen one or the next one present (R254, R391). -/
def presentPort (s : State) (p : Nat) : Nat :=
  ((List.range 4).map (fun i => (p + i) % 4)).find? (fun q => bitOf (rd s glbStrapsFportPresent) q) |>.getD (p % 4)

/-- The number the next packet of a command gets. -/
def nextNum (s : State) (key : Nat) : Nat := (s.txState.filter (fun t => t.key == key)).length

/-- Queue a packet and, when asked, its backup copy (R254, R391). -/
def queuePacket (s : State) (key port : Nat) (backup : Bool) (b : List Byte) : State :=
  let num := nextNum s key
  let prim : TxPacket := ⟨presentPort s port, 1, false, false, 0, key, num, b⟩
  let copy : TxPacket := ⟨presentPort s (port + 2), 1, true, false, 0, key, num,
    b.take 5 ++ natLE (fieldAt b 5 1 ||| 1) 1 ++ b.drop 6⟩
  { s with txq := s.txq ++ (if backup then [prim, copy] else [prim])
           txState := s.txState ++ [⟨key, num, if backup then 2 else 1, false⟩] }

/-- The digest of a contribution's payloads (R267). -/
def payloadDigest (ps : List (List Byte)) : Nat := ps.foldl crcFrom 0

/-- Send one contribution for command `key`; no piece stands for an EMPTY record, whose payload fields are free values (R253, R256). -/
def sendContribution (s : State) (key : Nat) (backup : Bool) (x : Contrib) (ps : List Piece) : State :=
  let local' := x.dest == rd s glbStrapsChipNum
  if ps.isEmpty then
    let p : Piece := ⟨Config.emptyField s.free % 2 ^ 32, Config.emptyField (s.free + 1) % 2 ^ 16,
      Config.emptyField (s.free + 2) % 2 ^ 16, [], pfEmpty⟩
    let s := bump { s with free := s.free + 3 } rsuEmptySentCount 1
    queuePacket s key x.shard (backup && !local') (packetBytes s x p 0 1 0)
  else
    let n := ps.length
    let dg := payloadDigest (ps.map (·.payload))
    (ps.zip (List.range n)).foldl (fun s p =>
      queuePacket s key (x.shard + p.2) (backup && !local') (packetBytes s x p.1 p.2 n dg)) s

/-- The digest entry of a contribution (R267). -/
def digestEntry (digest npkt flags : Nat) : List Byte := natLE digest 8 ++ natLE npkt 4 ++ natLE flags 1 ++ natLE 0 3

/-- The entry of a sent contribution. -/
def sentEntry (ps : List Piece) : List Byte :=
  if ps.isEmpty then digestEntry 0 1 1
  else digestEntry (payloadDigest (ps.map (·.payload))) ps.length (flagIf (ps.any (fun p => bitOf p.flags 6)) 2)

/-- Write the digest table: an entry per rank, 0 for a rank not exchanged with (R267). -/
def putDigests (s : State) (c : Cmd) (shards : Nat) (es : List (Nat × List Byte)) : State :=
  if rsDigests c.desc = 0 then s
  else s.store (rsDigests c.desc) ((List.range shards).flatMap (fun r =>
    ((es.find? (fun e => e.1 == r)).map (·.2)).getD (zeros 16)))

/-! ### Payloads (R253, R255 to R259) -/

/-- A row of 256 FP32 values from the row's binary64 values, and whether a NaN or Inf is among them (R52, R255). -/
def f32Of (e : BitVec 64) : Nat := f32Round (decodeFloat ffB64 e.toNat)
def f32NonFinite (n : Nat) : Bool := (decodeFloat ffFP32 n).nonFinite
def f32Row (row : List (BitVec 64)) : List Byte :=
  row.flatMap (fun e => natLE (f32Of e) 4) ++ zeros (4 * (256 - row.length))

/-- Dense pieces of a tile's rows (R253). -/
def densePieces (t : Nat) (rows : List (List (BitVec 64))) : List Piece :=
  ((chunksOf 8 rows).zip (List.range 32)).map (fun p =>
    ⟨t, 8 * p.2, p.1.length, p.1.flatMap f32Row, flagIf (p.1.any (fun r => r.any (fun e => f32NonFinite (f32Of e)))) pfPoison⟩)

/-- The place of an entry in the thinning order: class, falling magnitude, index (R258). -/
def thinKey (e : BitVec 64) (idx : Nat) : Nat :=
  let cls := match decodeFloat ffB64 e.toNat with
    | .nan => 0
    | .inf _ => 1
    | .fin _ _ _ => 2
  let mag := if cls = 2 then e.toNat % 2 ^ 63 else 0
  (cls * 2 ^ 63 + (2 ^ 63 - 1 - mag)) * 4096 + idx

/-- The bitmap of the kept entries of a thinning block (R257, R258). -/
def thinBitmap (keepLog2 : Nat) (rows : List (List (BitVec 64))) : Nat :=
  let es := (rows.zip (List.range 16)).flatMap (fun r => (r.1.zip (List.range 256)).map (fun e => (e.1, r.2 * 256 + e.2)))
  let kb := ceilDiv es.length (2 ^ keepLog2)
  ((sortBy (fun e => thinKey e.1 e.2) es).take kb).foldl (fun a e => a + 2 ^ e.2) 0

/-- The kept values of a block in ascending index. -/
def thinKept (bm : Nat) (rows : List (List (BitVec 64))) : List (BitVec 64) :=
  (rows.zip (List.range 16)).flatMap (fun r =>
    ((r.1.zip (List.range 256)).filter (fun e => bitOf bm (r.2 * 256 + e.2))).map (·.1))

/-- SPARSE pieces of a tile (R253, R257). -/
def sparsePieces (keepLog2 t : Nat) (rows : List (List (BitVec 64))) : List Piece :=
  ((chunksOf 16 rows).zip (List.range 16)).map (fun p =>
    let bm := thinBitmap keepLog2 p.1
    let ks := thinKept bm p.1
    ⟨t, 16 * p.2, p.1.length, natLE bm 512 ++ ks.flatMap (fun e => natLE (f32Of e) 4),
      pfSparse ||| flagIf (ks.any (fun e => f32NonFinite (f32Of e))) pfPoison⟩)

/-- The staged residual of an entry, and whether it makes the SEND carry POISON (R259). -/
def stagedResidual (kept : Bool) (e : BitVec 64) : BitVec 64 × Bool :=
  let v := decodeFloat ffB64 e.toNat
  if v.nonFinite then (0, true)
  else if !kept then (e, false)
  else
    let f := decodeFloat ffFP32 (f32Of e)
    if f.nonFinite then (0, true) else (BitVec.ofNat 64 (encodeRNE ffB64 (sumVals [v, negVal f])), false)

/-- The staged residuals of a tile: 256 rows of 256 entries, +0 outside the shape (R259). -/
def residualBytes (thin : Bool) (keepLog2 : Nat) (rows : List (List (BitVec 64))) : List Byte × Bool :=
  let bms := (chunksOf 16 rows).map (thinBitmap keepLog2)
  let out := (rows.zip (List.range 256)).map (fun r => (r.1.zip (List.range 256)).map (fun e =>
    stagedResidual (!thin || bitOf ((bms[r.2 / 16]?).getD 0) (r.2 % 16 * 256 + e.2)) e.1))
  (padTo 524288 (out.flatMap (fun r => padTo 2048 (r.flatMap (fun x => natLE x.1.toNat 8)))), out.any (fun r => r.any (·.2)))

/-- The address of entry `k` of tile `t` in residual half `p` (R259). -/
def residualAddr (j : Job) (p t k : Nat) : Nat := j.res + p * j.tiles * 524288 + (t * 65536 + k) * 8

/-- The rows of tile `t` of the group inside its shape, as the reader sees them (R160). -/
def tileRows (s : State) (g rows cols t : Nat) (f : Nat → BitVec 64 → BitVec 64) : List (List (BitVec 64)) :=
  let x := tileExtent rows cols t
  (List.range x.1).map (fun r => (List.range x.2).map (fun c => f (r * 256 + c) (readEntry s g t (r * 256 + c))))

/-- The values of a tile to be sent: the Screed value plus the committed residual (R255, R259). -/
def sendRows (s : State) (c : Cmd) (j : Job) (t : Nat) : List (List (BitVec 64)) :=
  tileRows s (rsGroup c.desc) j.rows j.cols t (fun k v =>
    if j.res = 0 then v
    else b64Add v (if rsRzero c.desc then 0 else BitVec.ofNat 64 (s.num (residualAddr j s.epoch.parity t k) 8)))

/-! ### SEND CONTRIB (R255, R256) -/

/-- Whether a rank's shard goes as an EMPTY record (R256). -/
def shardEmpty (s : State) (c : Cmd) (j : Job) (rank : Nat) : Bool :=
  let g := rsGroup c.desc
  rsEmpty c.desc || (j.res == 0 && !(groupOf s g).init && (shardTiles j rank).all (fun t => (tileOf s g t).state == .untouched))

/-- The ranks in the order of R255. -/
def sendOrder (j : Job) : List Nat := (List.range j.shards).map (fun i => (j.mine + 1 + i) % j.shards)

/-- A SEND under way: the state, its digest entries, whether it carries POISON, whether all it sent was EMPTY. -/
structure SendRun where
  st      : State
  entries : List (Nat × List Byte)
  poison  : Bool
  empty   : Bool

/-- Send one rank its shard, writing the staged residuals of its tiles (R255, R259). -/
def contribRank (c : Cmd) (j : Job) (a : SendRun) (rank : Nat) : SendRun :=
  let s := a.st
  let k := c.lat.keepLog2
  let x : Contrib := ⟨peerChip s j rank, 1, j.id, dStep c.desc, rank, j.mine, 0, 0⟩
  if shardEmpty s c j rank then
    { a with st := sendContribution s c.key j.backup x [], entries := a.entries ++ [(rank, sentEntry [])] }
  else
    let ts := (shardTiles j rank).map (fun t => (t, sendRows s c j t))
    let ps := ts.flatMap (fun t => if rsThin c.desc then sparsePieces k t.1 t.2 else densePieces t.1 t.2)
    let s := if rsThin c.desc then
        bump s rsuThinKeptCount (ps.foldl (fun n p => n + (p.payload.length - 512) / 4) 0)
      else s
    let rs := if j.res = 0 then [] else ts.map (fun t => (t.1, residualBytes (rsThin c.desc) k t.2))
    let s := rs.foldl (fun s r => s.store (residualAddr j (1 - s.epoch.parity) r.1 0) r.2.1) s
    { st := sendContribution s c.key j.backup x ps
      entries := a.entries ++ [(rank, sentEntry ps)]
      poison := a.poison || ps.any (fun p => bitOf p.flags 6) || rs.any (fun r => r.2.2)
      empty := false }

/-- With EMPTY = 1 the committed residual half is copied into the staged half (R256). -/
def copyResiduals (s : State) (c : Cmd) (j : Job) : State :=
  if rsEmpty c.desc && j.res != 0 then
    s.store (residualAddr j (1 - s.epoch.parity) 0 0) (s.bytes (residualAddr j s.epoch.parity 0 0) (j.tiles * 524288))
  else s

/-- A SEND has handed its packets over; it ends once each has its status (R255, R392). -/
def sendBegun (s : State) (c : Cmd) (flags : Nat) : State :=
  if nextNum s c.key = 0 then endCmd s c.key stOK flags 0
  else modCmd s c.key (fun c => { c with phase := .begun, flags := c.flags ||| flags })

/-- The effect of SEND CONTRIB. -/
def sendContribRun (s : State) (c : Cmd) : State :=
  let j := jobOf s c
  let g := rsGroup c.desc
  if !(rsEmpty c.desc) && (groupOf s g).gen ≠ genOf c g then endCmd s c.key (resetStatus (groupOf s g)) 0 0
  else
    let a := (sendOrder j).foldl (contribRank c j) ⟨copyResiduals s c j, [], false, true⟩
    sendBegun (putDigests a.st c j.shards a.entries) c (flagIf a.poison flPoison ||| flagIf a.empty flEmpty)

/-- SEND CONTRIB. -/
def execSendContrib (r : CmdRef) (s : State) : Host.Outcome State Fault Refusal :=
  runGroupUnit s (refKey r) (fun c => isOp 0x20 c && rsMode c.desc == 0)
    (fun c => if rsEmpty c.desc then 64 else rsGroup c.desc) sendContribRun

/-! ### SEND PARAMS (R253, R266) -/

/-- Element and scale bytes of a row of 256 elements, and the rows of a packet (R201, R253). -/
def paramLb (l : Layout) : Nat := 256 * layoutBits l / 8
def paramSb (l : Layout) : Nat := if l.mx then 8 else 0
def paramRows (l : Layout) : Nat := 2 ^ Nat.log2 (8192 / (paramLb l + paramSb l))

/-- The packed elements and the scale bytes of row `r` of a tile that starts at column `c0` with `n` columns; the scale byte of a block that lies
wholly outside the tensor is sent as 0 (DESIGN CHOICE, log 77). -/
def paramLine (s : State) (l : Layout) (r c0 n : Nat) : List Byte × List Byte :=
  (padTo (paramLb l) (packRow (layoutBits l) ((List.range n).map (fun c => loadRaw s l r (c0 + c)))),
    padTo (paramSb l) (if l.mx then (List.range (ceilDiv n 32)).map (fun k => BitVec.ofNat 8 (loadScale s l r (c0 + 32 * k))) else []))

/-- The pieces of one tile of the working copy. -/
def paramPieces (s : State) (l : Layout) (rows cols t : Nat) : List Piece :=
  let x := tileExtent rows cols t
  let ls := (List.range x.1).map (fun r =>
    let row := tileRow0 cols t + r
    (paramLine s l row (tileCol0 cols t) x.2, (List.range x.2).any (fun q => (loadVal s l row (tileCol0 cols t + q)).nonFinite)))
  ((chunksOf (paramRows l) ls).zip (List.range 256)).map (fun p =>
    ⟨t, paramRows l * p.2, p.1.length, p.1.flatMap (·.1.1) ++ p.1.flatMap (·.1.2), flagIf (p.1.any (·.2)) pfPoison⟩)

/-- The layout record of the staged working copy (R247, R272). -/
def stagedCopy (s : State) (j : Job) : Layout := layoutAt s (j.wrec (1 - s.epoch.parity))

/-- The effect of SEND PARAMS. -/
def sendParamsRun (s : State) (c : Cmd) : State :=
  let j := jobOf s c
  let l := stagedCopy s j
  let ps := (shardTiles j j.mine).flatMap (paramPieces s l j.rows j.cols)
  let ranks := (sendOrder j).filter (· != j.mine)
  let s1 := ranks.foldl (fun s r => sendContribution s c.key j.backup
    ⟨peerChip s j r, 3, j.id, dStep c.desc, j.mine, j.mine, l.code + flagIf l.mx 16, 0⟩ ps) s
  sendBegun (putDigests s1 c j.shards (ranks.map (fun r => (r, sentEntry ps)))) c
    (flagIf (!ranks.isEmpty && ps.any (fun p => bitOf p.flags 6)) flPoison)

/-- Whether an earlier APPLY of the queue has not had its effect: a SEND PARAMS waits for it (R270). -/
def applyBefore (s : State) (c : Cmd) : Bool :=
  s.cmds.any (fun e => e.q == c.q && serialLt e.seq c.seq && isOp 0x22 e && !e.refused && (e.phase == .started || e.phase == .begun))

/-- What a SEND PARAMS reads: the peer table, and its shard of the staged working copy (R248, R266). -/
def sentCopyReads (s : State) (c : Cmd) : List (Nat × Nat) :=
  let j := jobOf s c
  let l := stagedCopy s j
  (j.peers, 8 * j.shards) :: (shardTiles j j.mine).flatMap (fun t =>
    let x := tileExtent j.rows j.cols t
    operandRuns s l (tileRow0 j.cols t) x.1 (tileCol0 j.cols t) x.2)

/-- SEND PARAMS: reads its shard, then sends it. -/
def execSendParams (r : CmdRef) (s : State) : Host.Outcome State Fault Refusal :=
  runUnit s (refKey r) (fun c => isOp 0x20 c && rsMode c.desc == 1 && !(applyBefore s c)) (fun s c =>
    if c.asked = 0 then askReads (modCmd s c.key (fun c => { c with asked := 1 })) c.key 7 0 (sentCopyReads s c)
    else sendParamsRun s c)

/-! ### SEND CHAIN (R268) -/

/-- The pieces of one tile in binary64. -/
def chainPieces (t : Nat) (rows : List (List (BitVec 64))) : List Piece :=
  ((chunksOf 4 rows).zip (List.range 64)).map (fun p =>
    ⟨t, 4 * p.2, p.1.length, p.1.flatMap (fun r => padTo 2048 (r.flatMap (fun e => natLE e.toNat 8))),
      flagIf (p.1.any (fun r => r.any b64NonFinite)) pfPoison⟩)

/-- The effect of SEND CHAIN. -/
def sendChainRun (s : State) (c : Cmd) : State :=
  let j := jobOf s c
  let g := rsGroup c.desc
  let peer := rsPeer c.desc
  if (groupOf s g).gen ≠ genOf c g then endCmd s c.key (resetStatus (groupOf s g)) 0 0
  else
    let ps := (List.range (groupTiles (groupOf s g))).flatMap (fun t =>
      chainPieces t (tileRows s g j.rows j.cols t (fun _ v => v)))
    let s1 := sendContribution s c.key j.backup
      ⟨peerChip s j peer, 4, j.id, dStep c.desc, 0, j.mine, 0xA, flagIf (rsFinal c.desc) pfFinal⟩ ps
    sendBegun (putDigests s1 c j.shards [(peer, sentEntry ps)]) c (flagIf (ps.any (fun p => bitOf p.flags 6)) flPoison)

/-- SEND CHAIN. -/
def execSendChain (r : CmdRef) (s : State) : Host.Outcome State Fault Refusal :=
  runGroupUnit s (refKey r) (fun c => isOp 0x20 c && rsMode c.desc == 2) (fun c => rsGroup c.desc) sendChainRun

/-! ### Transmission (R254, R391, R392) -/

/-- The packet that leaves next on a port: a waiting snapshot packet before a waiting reduction packet (R391). -/
def nextPacket (s : State) (p : Nat) : Option TxPacket :=
  match s.txq.find? (fun t => t.port == p && t.vc == 0) with
  | some t => some t
  | none => s.txq.find? (fun t => t.port == p)

/-- The lowest packet ID not awaiting status on the port (DESIGN CHOICE, log 6). -/
def freePid (s : State) (p : Nat) : Nat :=
  let used := (s.txAwait.filter (fun t => t.port == p)).map (·.pid)
  ((List.range 4096).find? (fun i => !used.contains i)).getD 0

/-- PACKET_SEND: the packet leaves and awaits its status; at most 4,096 await on a port (R392). -/
def execPacketSend (port : BitVec 2) (s : State) : Host.Outcome State Fault Refusal :=
  let p := port.toNat
  match nextPacket s p with
  | none => .next s
  | some t =>
    if unitsRun s && (s.txAwait.filter (fun t => t.port == p)).length < 4096 then
      let s1 := { s with txq := s.txq.erase t, txAwait := s.txAwait ++ [{ t with pid := freePid s p }] }
      .next (settle s (if t.vc = 1 then bump (bump s1 rsuPktSentCount 1) rsuTxBytesCount t.bytes.length else s1))
    else .next s

/-- Whether every packet of a command has its status, and whether one failed: no copy was DONE (R392). -/
def txSettled (s : State) (key : Nat) : Bool := s.txState.all (fun t => t.key != key || t.done || t.copies == 0)
def txFailed (s : State) (key : Nat) : Bool := s.txState.any (fun t => t.key == key && !t.done && t.copies == 0)

/-- End a SEND whose packets all have their status (R255, R392, R322). -/
def sendFinish (s : State) (c : Cmd) : State :=
  let st := max (worstErr c) (if txFailed s c.key then stFportError else stOK)
  endCmd { s with txState := s.txState.filter (fun t => t.key != c.key) } c.key st 0 0

/-! ### Receive contexts (R262 to R264) -/

def isRecv (c : Cmd) : Bool := dOp c.desc == 0x21

/-- Whether this RECV opens the next context: 8 are open at most, and the order is that of R311. -/
def ctxTurn (s : State) (c : Cmd) : Bool :=
  let first := ((arbitration s).filter (fun e => isRecv e && e.phase == .started)).takeWhile (fun e => e.key != c.key)
  s.rxOpen.length + first.length < 8

/-- The KIND a RECV mode receives (R252). -/
def recvKind (mode : Nat) : Nat := if mode = 0 then 2 else if mode = 1 then 3 else 4

/-- Open the context of a RECV. -/
def openCtx (s : State) (c : Cmd) : State :=
  let j := jobOf s c
  let mode := rsMode c.desc
  let x : RxCtx := ⟨c.key, recvKind mode, j.id, dStep c.desc, if mode < 2 then j.mine else rsPeer c.desc, [], [], []⟩
  modCmd { s with rxOpen := s.rxOpen ++ [x] } c.key (fun c => { c with phase := .begun })

/-- Close a context; the last 32 are remembered (R262). -/
def closeCtx (s : State) (key : Nat) : State :=
  let own := s.rxOpen.filter (fun x => x.key == key)
  let l := s.rxClosed ++ own.map (fun x => (x.kind * 2 ^ 16 + x.job, x.step, x.rank))
  { s with rxOpen := s.rxOpen.filter (fun x => x.key != key), rxClosed := l.drop (l.length - 32) }

/-! ### Received packets (R393) -/

/-- The packets answered with REJECT (R263, R393). -/
def packetBad (s : State) (b : List Byte) : Bool :=
  let k := hKind b
  b.length < 64 || k < 2 || 4 < k || bitOf (hFlags b) 7 || bitsOf (fieldAt b 0x20 1) 5 3 != 0 || fieldAt b 0x21 1 != 0 ||
    fieldAt b 0x24 4 != 0 || fieldAt b 0x38 8 != 0 || hNpkt b == 0 || hNpkt b ≤ hSeq b || fieldAt b 0x22 2 + 64 != b.length ||
    fieldAt b 0x00 2 != rd s glbStrapsChipNum

/-- Whether a packet matches KIND, JOB, STEP and rank of a context (R262). -/
def rxMatches (kind job step rank : Nat) (b : List Byte) : Bool :=
  hKind b == kind && hJob b == job && hStep b == step &&
    (if kind = 2 then hShard b == rank else if kind = 3 then hSrc b != rank else hSrc b == rank)

/-! ### Accepted packets (R264, R266, R268) -/

/-- Whether TILE, ROW and NROWS lie within the tiles given and the tensor's rows, with a payload of that many rows of
`w` bytes (the last part DESIGN CHOICE, log 27). -/
def packetInside (b : List Byte) (rows cols : Nat) (ts : List Nat) (w : Nat) : Bool :=
  ts.contains (hTile b) && hRow b + hNrows b ≤ (tileExtent rows cols (hTile b)).1 && (b.drop 64).length == hNrows b * w

/-- The (key, value) cells of a packet's rows inside the shape, `w` bytes an entry. -/
def packetCells (b : List Byte) (rows cols w : Nat) (f : Nat → BitVec 64) : List (Nat × BitVec 64) :=
  let x := tileExtent rows cols (hTile b)
  (List.range (hNrows b)).flatMap (fun i => (List.range x.2).map (fun q =>
    ((hRow b + i) * 256 + q, f (fieldAt b (64 + (i * 256 + q) * w) w))))

/-- A RECV write of cells into tile `t` of the group under GEN, state and stamp: the state, FLAGS, a late status, and whether
it was written (R152, R159, R264). An equal stamp does not refuse it. -/
def recvWrite (s : State) (c : Cmd) (g t : Nat) (clear : Bool) (cells : List (Nat × BitVec 64)) : State × Nat × Nat × Bool :=
  match writeCheck (groupOf s g) (genOf c g) (dStamp c.desc) with
  | .go =>
    if dStamp c.desc < (tileOf s g t).stamp then (s, flStale, 0, false)
    else match makeResident s g t with
      | none => (s, 0, 0, false)
      | some s1 =>
        let m := meetTile s1 (tileKey g t) (some c)
        if m.2 then (m.1, 0, stFault, false)
        else
          let s := m.1
          let d := tileOf s g t
          let fr := if clear then [] else frameOf s d.frame
          let s := setFrame s d.frame (cells.foldl (fun f p => tins f p.1 p.2) fr)
          let s := freshWords s d.frame (fun k => clear || cells.any (fun x => x.1 == k))
          (setTile s g t { d with dirty := true }, 0, 0, true)
  | .refused v => (s, 0, v, false)
  | .dropped v => (bump s scrDroppedCount (cells.map (·.1 / 256)).eraseDups.length, 0, v, false)
  | .refold => (s, 0, 0, false)
  | .stale => (s, 0, 0, false)

/-- Note FLAGS, a late status and a written tile of a RECV. -/
def recvNote (s : State) (key t : Nat) (r : Nat × Nat × Bool) : State :=
  let s := modCmd s key (fun c => { c with flags := c.flags ||| r.1, status := max c.status r.2.1 })
  if r.2.2 then
    { s with rxOpen := s.rxOpen.map (fun x => if x.key == key && !x.wrote.contains t then { x with wrote := x.wrote ++ [t] } else x) }
  else s

/-- One accepted REDUCED packet: its rows written, or every shard tile cleared by an EMPTY record (R264). -/
def reducedPacket (s : State) (c : Cmd) (j : Job) (b : List Byte) : State :=
  let g := rsGroup c.desc
  if hEmpty b then
    (shardTiles j j.mine).foldl (fun s t => let r := recvWrite s c g t true []; recvNote r.1 c.key t r.2) s
  else
    let r := recvWrite s c g (hTile b) false (packetCells b j.rows j.cols 4 fp32ToB64)
    recvNote r.1 c.key (hTile b) r.2

/-- One accepted PARAMS packet: its rows and their scales written into the staged working copy (R253, R266). -/
def paramsPacket (s : State) (j : Job) (b : List Byte) : State :=
  let l := stagedCopy s j
  let n := hNrows b
  let x := tileExtent j.rows j.cols (hTile b)
  let c0 := tileCol0 j.cols (hTile b)
  forN n (fun i s =>
    let r := tileRow0 j.cols (hTile b) + hRow b + i
    let raws := unpackRow (layoutBits l) x.2 ((b.drop (64 + i * paramLb l)).take (paramLb l))
    let s := (raws.zip (List.range x.2)).foldl (fun s e => storeRaw s l r (c0 + e.2) e.1) s
    if l.mx then
      forN (ceilDiv x.2 32) (fun k s => storeScale s l r (c0 + 32 * k) (fieldAt b (64 + n * paramLb l + i * paramSb l + k) 1)) s
    else s) s

/-- The packets of tile `t` a chain source has sent that lie inside it, and whether they hold every row of it (R268). -/
def chainTilePkts (x : RxSource) (rows cols t : Nat) : List (List Byte) :=
  (sortBy hRow ((x.pkts.map (·.2)).filter (fun b => hTile b == t && packetInside b rows cols [t] 2048)))
def chainTileFull (x : RxSource) (rows cols t : Nat) : Bool :=
  (List.range (tileExtent rows cols t).1).all (fun r =>
    (chainTilePkts x rows cols t).any (fun b => hRow b ≤ r && r < hRow b + hNrows b))

/-- A complete tile of a chain: folded by CHAIN_ADD, put in place by CHAIN_SET, both under the rules of a fold (R268). -/
def chainTile (s : State) (c : Cmd) (j : Job) (x : RxSource) (t : Nat) : State :=
  let g := rsGroup c.desc
  let cells := (chainTilePkts x j.rows j.cols t).foldl (fun l b => (packetCells b j.rows j.cols 8 b64Entry).foldl (fun l p => tins l p.1 p.2) l) []
  if rsMode c.desc = 2 then
    let r := foldCells s c g t c.adv cells
    modCmd r.1 c.key (fun c => { c with flags := c.flags ||| r.2.flags, status := max c.status r.2.status, adv := r.2.adv })
  else
    match foldCheck s g t (genOf c g) (dStamp c.desc) with
    | .go =>
      let r := recvWrite s c g t true cells
      let s := modCmd r.1 c.key (fun c => { c with flags := c.flags ||| r.2.1, status := max c.status r.2.2.1 })
      if r.2.2.2 then raiseGroup (setTile s g t { tileOf s g t with stamp := dStamp c.desc }) g (dStep c.desc) c.lat.seed else s
    | .refold => modCmd (bump s scrRefoldsCount 1) c.key (fun c => { c with flags := c.flags ||| flRefold })
    | .stale =>
      let s := bump s scrStaleCount 1
      modCmd (if c.lat.staleBreak then breakGroup s g else s) c.key (fun c => { c with flags := c.flags ||| flStale })
    | .dropped v =>
      let r := foldDropped s v c.adv cells
      modCmd r.1 c.key (fun c => { c with status := max c.status v })
    | .refused v => modCmd s c.key (fun c => { c with status := max c.status v })

/-! ### The end of a RECV (R264, R266 to R268) -/

/-- The receive digest of a source, in ascending SEQ (R267). -/
def recvDigest (x : RxSource) : Nat := payloadDigest ((sortBy (·.1) x.pkts).map (fun p => p.2.drop 64))

/-- Whether every packet of a source has arrived, and whether its digest or a packet's place is wrong. -/
def sourceFull (x : RxSource) : Bool := x.pkts.length == x.npkt
def sourceWrong (x : RxSource) : Bool := x.bad || recvDigest x != x.digest

/-- The digest entry of a source. -/
def recvEntry (x : RxSource) : List Byte :=
  digestEntry (recvDigest x) x.npkt (flagIf (bitOf x.flags 4) 1 ||| flagIf (bitOf x.flags 6) 2)

/-- The ranks a RECV waits for; a REDUCED one takes one contribution, from any host adder. -/
def sourcesReady (j : Job) (mode : Nat) (x : RxCtx) : Bool :=
  if mode = 1 then
    ((List.range j.shards).filter (· != j.mine)).all (fun r => x.sources.any (fun y => y.rank == r && sourceFull y))
  else x.sources.any sourceFull

/-- Count a digest mismatch (R271). -/
def digestErr (s : State) (j : Job) (rank : Nat) : State :=
  setEvt (wr (wr (bump s rsuDigestErrCount 1) rsuDigestErrJob j.id) rsuDigestErrRank rank) evDigest

/-- A REDUCED shard that has arrived whole: stamps and STEP (R264). -/
def reducedDone (s : State) (c : Cmd) (x : RxCtx) : State :=
  let g := rsGroup c.desc
  let st := dStamp c.desc
  let s := x.wrote.foldl (fun s t =>
    let d := tileOf s g t
    if d.stamp ≤ st then setTile s g t { d with stamp := st } else s) s
  raiseGroup s g (dStep c.desc) c.lat.seed

/-- A RECV REDUCED that completes OK sets the group's bit of GRP_RED, if the group is the one it received into (R264, R265). -/
def markReduced (s : State) (c : Cmd) : State :=
  let g := rsGroup c.desc
  let x := groupOf s g
  if dOp c.desc = 0x21 ∧ rsMode c.desc = 0 ∧ c.status = stOK ∧ !c.refused ∧ genOf c g = x.gen then setGroup s g { x with reduced := true }
  else s

/-- End a RECV: the context closes; an error or a mismatch tears the group it writes (R152, R264, R322). -/
def recvFinish (s : State) (c : Cmd) (j : Job) (x : RxCtx) : State :=
  let mode := rsMode c.desc
  let full := x.sources.filter sourceFull
  let wrong := full.filter sourceWrong
  let s := closeCtx s c.key
  let s := putDigests s c j.shards (full.map (fun y => (if mode = 0 then j.mine else y.rank, recvEntry y)))
  if !c.errs.isEmpty then abortCmd s c
  else match wrong with
    | [] =>
      if c.status ≠ 0 then endCmd s c.key c.status 0 0
      else
        let s := if mode = 0 then reducedDone s c x else s
        let s := (writtenGroups c.desc).foldl (fun s g => mendGroup s g (dStamp c.desc) 0) s
        endCmd s c.key stOK (flagIf (mode = 0 && full.any (fun y => bitOf y.flags 4)) flEmpty) 0
    | y :: _ =>
      let s := wrong.foldl (fun s y => digestErr s j y.rank) s
      endCmd (tearWritten s c) c.key (max c.status stDigestMismatch) 0 (if c.status ≤ stDigestMismatch then y.rank else 0)

/-- The tiles a chain packet may lie in, and the tiles a packet of `src` may lie in (R264, R266, R268). -/
def rxTiles (s : State) (c : Cmd) (j : Job) (src : Nat) : List Nat :=
  match rsMode c.desc with
  | 0 => shardTiles j j.mine
  | 1 => if src < j.shards then shardTiles j src else []
  | _ => List.range (groupTiles (groupOf s (rsGroup c.desc)))

/-- Bytes of one received row. -/
def rxRowBytes (s : State) (c : Cmd) (j : Job) : Nat :=
  match rsMode c.desc with
  | 0 => 1024
  | 1 => paramLb (stagedCopy s j) + paramSb (stagedCopy s j)
  | _ => 2048

/-- Put an accepted packet into its source. -/
def sourceAdd (x : RxCtx) (b : List Byte) (bad : Bool) : RxCtx :=
  let old := (x.sources.find? (fun y => y.rank == hSrc b)).getD ⟨hSrc b, hNpkt b, [], 0, 0, false⟩
  let y : RxSource := { old with
    pkts := old.pkts ++ [(hSeq b, b)]
    flags := old.flags ||| hFlags b
    digest := if hSeq b + 1 = hNpkt b then hDigest b else old.digest
    bad := old.bad || bad }
  { x with sources := x.sources.filter (fun z => z.rank != y.rank) ++ [y] }

/-- The CONTRIB record of a contribution: sent whole with DONE, or received whole; `b` is its LAST packet (R435). -/
def contribTrace (s : State) (unit digest : Nat) (b : List Byte) : State :=
  trace s 3 (hKind b) unit (hFlags b) (hStep b) (hJob b + hShard b * 2 ^ 16 + hSrc b * 2 ^ 32) digest

/-- Trace the contribution a packet of `src` has completed. -/
def rxComplete (s : State) (x : RxCtx) (src : Nat) : State :=
  match x.sources.find? (fun y => y.rank == src && sourceFull y) with
  | some y => match y.pkts.find? (fun p => p.1 + 1 == y.npkt) with
    | some p => contribTrace s 1 y.digest p.2
    | none => s
  | none => s

/-- The tiles whose rows an accepted packet writes: none for PARAMS, the completed tile of a chain, every tile of the shard for an EMPTY record
(R264, R268). -/
def packetTiles (c : Cmd) (j : Job) (y : RxSource) (b : List Byte) : List Nat :=
  match rsMode c.desc with
  | 0 => if hEmpty b then shardTiles j j.mine else [hTile b]
  | 1 => []
  | _ => if !(hEmpty b) && chainTileFull y j.rows j.cols (hTile b) then [hTile b] else []

/-- What the rows of an accepted packet do (R264, R266, R268). -/
def packetWrite (s : State) (c : Cmd) (j : Job) (y : RxSource) (b : List Byte) : State :=
  match rsMode c.desc with
  | 0 => reducedPacket s c j b
  | 1 => if hEmpty b then s else paramsPacket s j b
  | _ => (packetTiles c j y b).foldl (fun s t => chainTile s c j y t) s

/-- Write the rows of the packet that has waited longest, if it may be now; the packets behind it wait on. -/
def writeWaiting (s : State) (key : Nat) : State :=
  match findCmd s key, s.rxOpen.find? (fun x => x.key == key) with
  | some c, some x => match x.waits with
    | w :: rest => match x.sources.find? (fun y => y.rank == w.1) with
      | some y => match tfind y.pkts w.2 with
        | some b =>
          let j := jobOf s c
          if (packetTiles c j y b).all (tileMay s c (rsGroup c.desc)) then
            packetWrite { s with rxOpen := s.rxOpen.map (fun z => if z.key == key then { z with waits := rest } else z) } c j y b
          else s
        | none => s
      | none => s
    | [] => s
  | _, _ => s

/-- Write what may be written now of the accepted packets, in their order, and end the RECV when everything has arrived and is written
(R264, R266 to R268). -/
def recvProgress (s : State) (key : Nat) : State :=
  let n := ((s.rxOpen.find? (fun x => x.key == key)).map (fun x => x.waits.length)).getD 0
  let s := forN n (fun _ s => writeWaiting s key) s
  match s.rxOpen.find? (fun y => y.key == key), findCmd s key with
  | some x, some c =>
    let j := jobOf s c
    let mode := rsMode c.desc
    if (x.waits.isEmpty && sourcesReady j mode x) || (mode = 1 && x.sources.any (fun y => sourceFull y && sourceWrong y)) then
      awaitWrites (recvFinish s c j x) key 7
    else awaitWrites s key 7
  | _, _ => s

/-- Accept a packet under its context (R263, R264, R266, R268). Rows outside the shard or the shape write nothing. -/
def rxAccept (s : State) (c : Cmd) (x : RxCtx) (b : List Byte) : State :=
  let m := meetUnit s c
  if m.2 then abortCmd (closeCtx m.1 c.key) (noteErr c 7 stFault)
  else
    let s := m.1
    let j := jobOf s c
    let inside := hEmpty b || packetInside b j.rows j.cols (rxTiles s c j (hSrc b)) (rxRowBytes s c j)
    let x := sourceAdd x b (!inside)
    let x := if inside then { x with waits := x.waits ++ [(hSrc b, hSeq b)] } else x
    let s := { s with rxOpen := s.rxOpen.map (fun y => if y.key == x.key then x else y) }
    recvProgress (rxComplete (bump (bump s rsuPktRecvCount 1) rsuRxBytesCount b.length) x (hSrc b)) c.key

/-! ### RECV (R262) -/

/-- A RECV opens its context; RECV PARAMS of a job of one rank has nothing to receive and ends (R266). -/
def recvOpen (s : State) (c : Cmd) : State :=
  let j := jobOf s c
  if rsMode c.desc = 1 && j.shards = 1 then endCmd (putDigests s c 1 []) c.key stOK 0 0 else openCtx s c

/-- A RECV of one mode: it opens its context in its turn (R262, R311), and once open writes the packets that have waited. -/
def runRecv (mode : Nat) (r : CmdRef) (s : State) : Host.Outcome State Fault Refusal :=
  match findCmd s (refKey r) with
  | some c =>
    if !(isRecv c && rsMode c.desc == mode) then .next s
    else if runnable s c && ctxTurn s c then .next (settle s (awaitWrites (actUnit s c recvOpen) c.key 7))
    else if unitsRun s && c.phase == .begun then .next (settle s (recvProgress s c.key))
    else .next s
  | none => .next s

/-- RECV REDUCED (R264). -/
def execRecvReduced (r : CmdRef) (s : State) : Host.Outcome State Fault Refusal := runRecv 0 r s

/-- RECV PARAMS (R266). -/
def execRecvParams (r : CmdRef) (s : State) : Host.Outcome State Fault Refusal := runRecv 1 r s

/-- RECV CHAIN_ADD (R268). -/
def execRecvChainAdd (r : CmdRef) (s : State) : Host.Outcome State Fault Refusal := runRecv 2 r s

/-- RECV CHAIN_SET (R268). -/
def execRecvChainSet (r : CmdRef) (s : State) : Host.Outcome State Fault Refusal := runRecv 3 r s

/-- The receive statuses of R390. -/
def frsAccept : Nat := 0
def frsRetry : Nat := 1
def frsReject : Nat := 2

/-- Answer a packet on its port. -/
def frsAnswer (s : State) (port pid code : Nat) : State := { s with frs := tins s.frs port (pid, code) }

/-- What becomes of a packet that arrives on a port (R262, R263, R393). -/
def rxPacket (s : State) (port pid : Nat) (b : List Byte) : State :=
  if packetBad s b then frsAnswer (bump s rsuNoctxCount 1) port pid frsReject
  else match s.rxOpen.find? (fun x => rxMatches x.kind x.job x.step x.rank b) with
    | some x =>
      let s := frsAnswer s port pid frsAccept
      match x.sources.find? (fun y => y.rank == hSrc b), findCmd s x.key with
      | some y, some c =>
        if y.npkt ≠ hNpkt b then bump s rsuNoctxCount 1
        else if y.pkts.any (fun p => p.1 == hSeq b) then bump s rsuDupsCount 1
        else rxAccept s c x b
      | none, some c => rxAccept s c x b
      | _, none => s
    | none =>
      if s.rxClosed.any (fun x => rxMatches (x.1 / 2 ^ 16) (x.1 % 2 ^ 16) x.2.1 x.2.2 b) then
        frsAnswer (bump s rsuDupsCount 1) port pid frsAccept
      else frsAnswer (bump s rsuNoctxCount 1) port pid frsRetry

/-- FPORT_RECEIVE: without the fabric clock the host chip holds the packet (R403). -/
def execFportReceive (port : BitVec 2) (pid : BitVec 12) (packet : List Byte) (s : State) :
    Host.Outcome State Fault Refusal :=
  if unitsRun s then .next (settle s (rxPacket s port.toNat pid.toNat packet)) else .next s

/-- RECV_WAIT: a RECV has waited LIMIT_MS; the event stands for that time having passed, once for a RECV (R270, R271). -/
def execRecvWait (r : CmdRef) (s : State) : Host.Outcome State Fault Refusal :=
  match findCmd s (refKey r) with
  | some c =>
    if unitsRun s && isRecv c && (c.phase == .started || c.phase == .begun) && c.window == 0 && rd s rsuRecvWdogLimitMs != 0 then
      .next (settle s (setEvt (bump (modCmd s c.key (fun c => { c with window := 1 })) rsuCtxStatEvents 1) evRecvWait))
    else .next s
  | none => .next s

end Sys2Proof.Machine
end

