-- ==== Sys2Proof/Machine/Upd.lean ====
section
/-! DEFINITION. The update applier and the epoch (11 R272 to R292): APPLY, statistics, COMMIT, ABANDON. -/

namespace Sys2Proof.Machine

/-! ### Records (R273, R276, R277) -/

structure Param where
  tid : Nat
  job : Nat
  w   : Nat × Nat
  m   : Nat × Nat
  v   : Nat × Nat
  deriving DecidableEq, Repr

def parseParam (b : List Byte) : Param :=
  { tid := fieldAt b 0x08 4, job := fieldAt b 0x10 8, w := (fieldAt b 0x18 8, fieldAt b 0x20 8),
    m := (fieldAt b 0x28 8, fieldAt b 0x30 8), v := (fieldAt b 0x38 8, fieldAt b 0x40 8) }

/-- Copy `p` of a pair of addresses. -/
def copyOf (a : Nat × Nat) (p : Nat) : Nat := if p = 0 then a.1 else a.2

def apGroup (d : List Byte) : Nat := bitsOf (dNum d 0x30 1) 0 6
def apOpt (d : List Byte) : Nat := bitsOf (dNum d 0x31 1) 0 3
def apRnd (d : List Byte) : Nat := bitsOf (dNum d 0x32 1) 0 2
def apSat (d : List Byte) : Bool := bitOf (dNum d 0x32 1) 2
def apStat (d : List Byte) : Nat := dNum d 0x33 1

def paramOf (s : State) (c : Cmd) : Param := parseParam (recOf s c (dNum c.desc 0x20 8) 128)
def applyJob (s : State) (c : Cmd) : Job := parseJob (recOf s c (paramOf s c).job 128)

/-- The hyperparameters as FP32 codes (R277). -/
structure Hyper where
  lr     : Nat
  mu     : Nat
  b1     : Nat
  ob1    : Nat
  b2     : Nat
  ob2    : Nat
  eps    : Nat
  wd     : Nat
  gscale : Nat
  bc1    : Nat
  bc2    : Nat
  deriving DecidableEq, Repr

def parseHyper (b : List Byte) : Hyper :=
  let f := fun o => fieldAt b o 4
  ⟨f 0, f 4, f 8, f 0xC, f 0x10, f 0x14, f 0x18, f 0x1C, f 0x20, f 0x24, f 0x28⟩

def hyperOf (s : State) (c : Cmd) : Hyper := parseHyper (recOf s c (dNum c.desc 0x28 8) 64)

/-! ### The update of one entry (R279) -/

/-- The results of one entry: g, w′, m′, v′. -/
structure Updated where
  g : Nat
  w : Nat
  m : Nat
  v : Nat
  deriving DecidableEq, Repr

/-- One entry under OPT 0 to 3; `sv` is the Screed value (R279). -/
def updateEntry (opt : Nat) (h : Hyper) (sv : Val) (w m v : Nat) : Updated :=
  let g0 := f32Round (mulVal sv (f32Val h.gscale))
  if opt = 3 then
    let m' := f32Add (f32Mul h.b1 m) (f32Mul h.ob1 g0)
    let v' := f32Add (f32Mul h.b2 v) (f32Mul (f32Mul h.ob2 g0) g0)
    let mh := f32Mul m' h.bc1
    let vh := f32Mul v' h.bc2
    let q := f32Add (f32Sqrt vh) h.eps
    let u := f32Div mh q
    ⟨g0, f32Sub w (f32Mul h.lr (f32Add u (f32Mul h.wd w))), m', v'⟩
  else
    let g := if (f32Val h.wd).isZero then g0 else f32Add g0 (f32Mul h.wd w)
    if opt = 0 then ⟨g, f32Sub w (f32Mul h.lr g), m, v⟩
    else
      let m' := f32Add (f32Mul h.mu m) g
      let d := if opt = 1 then m' else f32Add g (f32Mul h.mu m')
      ⟨g, f32Sub w (f32Mul h.lr d), m', v⟩

/-- Which arrays an OPT uses beside the master weights: the moment, the second moment. -/
def usesM (opt : Nat) : Bool := opt == 1 || opt == 2 || opt == 3
def usesV (opt : Nat) : Bool := opt == 3

/-- The entries of shard MINE in ascending whole-tensor index: (row, column, tile) (R279). -/
def shardEntries (j : Job) : List (Nat × Nat × Nat) :=
  let tc := ceilDiv j.cols 256
  let lo := shardFirst j j.mine
  let hi := shardFirst j (j.mine + 1)
  (List.range j.rows).flatMap (fun r => (List.range j.cols).filterMap (fun c =>
    let t := r / 256 * tc + c / 256
    if lo ≤ t && t < hi then some (r, c, t) else none))

/-- The offset of an entry in a shard-local array (R274). -/
def shardOff (j : Job) (e : Nat × Nat × Nat) : Nat :=
  (e.2.2 - shardFirst j j.mine) * 262144 + (e.1 % 256 * 256 + e.2.1 % 256) * 4

/-! ### APPLY (R279 to R284) -/

/-- One updated entry with its place: (entry, old w, results). -/
abbrev Applied := (Nat × Nat × Nat) × Nat × Updated

/-- The results of every entry of the shard. -/
def applyEntries (s : State) (c : Cmd) : List Applied :=
  let j := applyJob s c
  let p := paramOf s c
  let h := hyperOf s c
  let opt := apOpt c.desc
  let par := s.epoch.parity
  (shardEntries j).map (fun e =>
    let rdA := fun (on : Bool) (a : Nat × Nat) => if on then s.num (copyOf a par + shardOff j e) 4 else 0
    let w := rdA true p.w
    let sv := decodeFloat ffB64 (readEntry s (apGroup c.desc) e.2.2 (e.1 % 256 * 256 + e.2.1 % 256)).toNat
    (e, w, updateEntry opt h sv w (rdA (usesM opt) p.m) (rdA (usesV opt) p.v)))

/-- Write the staged master weights and moments (R274, R279). -/
def applyArrays (s : State) (c : Cmd) (es : List Applied) : State :=
  let j := applyJob s c
  let p := paramOf s c
  let opt := apOpt c.desc
  let par := 1 - s.epoch.parity
  es.foldl (fun s e =>
    let put := fun (on : Bool) (a : Nat × Nat) (v : Nat) (s : State) =>
      if on then s.store (copyOf a par + shardOff j e.1) (natLE v 4) else s
    put (usesV opt) p.v e.2.2.v (put (usesM opt) p.m e.2.2.m (put true p.w e.2.2.w s))) s

/-- The store format of the working copy (R44, R71, R276): SR draws at point 3 with the tensor's TID. -/
def workFmt (s : State) (c : Cmd) (l : Layout) : StoreFmt :=
  ⟨(fmtOf l.code).getD .fp32, l.mx, (rndOf (apRnd c.desc)).getD .rne, apSat c.desc, ⟨c.lat.seed, 3, (paramOf s c).tid, dStep c.desc⟩⟩

/-- Write the shard of the staged working copy (R279). -/
def applyWorking (s : State) (c : Cmd) (es : List Applied) : State :=
  let j := applyJob s c
  let l := stagedCopy s j
  let vals := es.map (fun e => (e.1.1 * j.cols + e.1.2.1, f32Val e.2.2.w))
  storeOutput s l (workFmt s c l) j.rows j.cols (fun _ _ => updSatEventsCount) (fun r q => tfind vals (r * j.cols + q))

/-- Whether an entry is counted by R280: g, w′, m′, v′ or the stored working-copy value is NaN or Inf. -/
def entryNonFinite (s : State) (c : Cmd) (e : Applied) : Bool :=
  let opt := apOpt c.desc
  let u := e.2.2
  f32NonFinite u.g || f32NonFinite u.w || (usesM opt && f32NonFinite u.m) || (usesV opt && f32NonFinite u.v) ||
    (loadVal s (stagedCopy s (applyJob s c)) e.1.1 e.1.2.1).nonFinite

/-- The sums of R283: NF, GSQ, USQ, GMAX. -/
def applySums (nf : Nat) (es : List Applied) : List (Nat × Nat) :=
  let acc := fun (a : Nat) (v : Val) => encodeRNE ffB64 (sumVals [decodeFloat ffB64 a, mulVal v v])
  let gsq := es.foldl (fun a e => acc a (f32Val e.2.2.g)) 0
  let usq := es.foldl (fun a e => acc a (sumVals [f32Val e.2.2.w, negVal (f32Val e.2.1)])) 0
  let gmax := es.foldl (fun a e => if f32NonFinite e.2.2.g then a else max a (e.2.2.g % 2 ^ 31)) 0
  [(0, nf), (1, gsq), (2, usq), (3, gmax)]

/-- The effect of APPLY other than COPY. -/
def applyRun (s : State) (c : Cmd) : State :=
  let g := apGroup c.desc
  if (groupOf s g).gen ≠ genOf c g then endCmd s c.key (resetStatus (groupOf s g)) 0 0
  else
    let es := applyEntries s c
    let s := applyWorking (applyArrays s c es) c es
    let nf := (es.filter (entryNonFinite s c)).length
    let s := bump (bump s updElemsCount es.length) updNonfiniteCount nf
    let s := setEvtIf (nf != 0) s evNonfinite
    endCmd (modCmd s c.key (fun c => { c with aux := applySums nf es })) c.key stOK (flagIf (nf != 0) flPoison) 0

/-- Whether the update applier may take a command: no fold is in progress in the group it reads (R160). -/
def applyReady (s : State) (c : Cmd) : Bool := isOp 0x22 c && (apOpt c.desc == 4 || !(groupBusy s (apGroup c.desc)))

/-- APPLY, in its turn (R311). -/
def execApply (r : CmdRef) (s : State) : Host.Outcome State Fault Refusal :=
  runGroupUnit s (refKey r) (fun c => isOp 0x22 c && apOpt c.desc != 4 && unitTurn s c (applyReady s)) (fun c => apGroup c.desc) applyRun

/-- Whether an entry of a COPY is counted by R280: a master or moment of the shard or an element of the working copy that is NaN or Inf. -/
def copyNonFinite (s : State) (c : Cmd) (arrs : List (Nat × Nat)) (r q : Nat) : Bool :=
  let j := applyJob s c
  let t := r / 256 * ceilDiv j.cols 256 + q / 256
  let mine := shardFirst j j.mine ≤ t && t < shardFirst j (j.mine + 1)
  (mine && arrs.any (fun a => f32NonFinite (s.num (copyOf a s.epoch.parity + shardOff j (r, q, t)) 4))) ||
    (loadVal s (layoutAt s (j.wrec s.epoch.parity)) r q).nonFinite

/-- The effect of COPY: bit copies of the shard's arrays and of the whole working copy (R279); it is counted by R280 as every OPT is, over the
entries it copies. -/
def copyRun (s : State) (c : Cmd) : State :=
  let j := applyJob s c
  let p := paramOf s c
  let par := s.epoch.parity
  let both := fun (a : Nat × Nat) => a.1 != 0 && a.2 != 0
  let arrs := p.w :: ([p.m, p.v].filter both)
  let es := shardEntries j
  let live := layoutAt s (j.wrec par)
  let st := stagedCopy s j
  let s1 := arrs.foldl (fun s1 a => es.foldl (fun s1 e =>
    s1.store (copyOf a (1 - par) + shardOff j e) (s.bytes (copyOf a par + shardOff j e) 4)) s1) s
  let s2 := forN j.rows (fun r s2 => forN j.cols (fun q s2 =>
    let s3 := storeRaw s2 st r q (loadRaw s live r q)
    if st.mx then storeScale s3 st r q (loadScale s live r q) else s3) s2) s1
  let nf := ((List.range j.rows).map (fun r => ((List.range j.cols).filter (copyNonFinite s c arrs r)).length)).sum
  let s3 := setEvtIf (nf != 0) (bump (bump s2 updElemsCount es.length) updNonfiniteCount nf) evNonfinite
  endCmd s3 c.key stOK (flagIf (nf != 0) flPoison) 0

/-- APPLY COPY. -/
def execApplyCopy (r : CmdRef) (s : State) : Host.Outcome State Fault Refusal :=
  runUnit s (refKey r) (fun c => isOp 0x22 c && apOpt c.desc == 4 && unitTurn s c (applyReady s)) copyRun

/-! ### Completion of staging commands (R284, R286, R287) -/

/-- Whether a command is a staging command (R286). -/
def isStaging (d : List Byte) : Bool :=
  dOp d == 0x22 || (dOp d == 0x20 && rsMode d < 2) || (dOp d == 0x21 && rsMode d == 1)

/-- Whether the command's step is the staged one and its attempt is the present one. -/
def stagedNow (s : State) (c : Cmd) : Bool := dStep c.desc == nextStep s && c.attempt == s.epoch.attempt

/-- Merge the sums of an APPLY into the staged statistics, or drop them: one that failed counts in STAT_STALE too (R284). COPY forms none (R283). -/
def mergeStats (s : State) (c : Cmd) : State :=
  if apOpt c.desc = 4 then s
  else if stagedNow s c && c.status = stOK then
    let id := apStat c.desc
    let x := tget statZero s.statsSt id
    let add := fun (a b : Nat) => (b64Add (BitVec.ofNat 64 a) (BitVec.ofNat 64 b)).toNat
    let y : StatEnt := ⟨satAdd 32 x.applies 1, satAdd 32 x.nf (tget 0 c.aux 0), add x.gsq (tget 0 c.aux 1),
      add x.usq (tget 0 c.aux 2), max x.gmax (tget 0 c.aux 3)⟩
    { s with statsSt := tput statZero s.statsSt id y }
  else bump s updStatStaleCount 1

/-- Count a completed staging command in UPD.STAGE_CNT (R287). -/
def countStaged (s : State) (c : Cmd) : State :=
  if stagedNow s c && c.status = stOK && (dOp c.desc == 0x22 || dOp c.desc == 0x21) then
    let e := s.epoch
    { s with epoch := { e with
        applied := if dOp c.desc = 0x22 then satAdd 16 e.applied 1 else e.applied
        params := if dOp c.desc = 0x21 then satAdd 16 e.params 1 else e.params
        poisoned := if bitOf c.flags 0 then satAdd 16 e.poisoned 1 else e.poisoned } }
  else s

/-- What the completion of a command adds to the epoch. -/
def stagedDone (s : State) (c : Cmd) : State :=
  if isStaging c.desc && !c.refused then countStaged (if dOp c.desc = 0x22 then mergeStats s c else s) c else s

/-! ### COMMIT (R287) -/

/-- End COMMIT or ABANDON with the parity and the step that hold then (R321). -/
def epochEnd (s : State) (key status : Nat) : State :=
  endCmd s key status (flagIf (s.epoch.parity = 1) flParity) s.epoch.step

/-- The status of a STEP other than c + 1 (R287 step 2). -/
def stepStatus (s : State) (step : Nat) : Nat :=
  if step = nextStep s then stOK else if step ≤ s.epoch.step then stStepCommitted else stBadStep

/-- Begin COMMIT or ABANDON: the state that holds others, and the command that waits; `window` keeps whether the epoch
was STAGING. -/
def epochBegin (s : State) (c : Cmd) (st : EState) : State :=
  modCmd { s with epoch := { s.epoch with state := st, waiting := c.key } } c.key
    (fun c => { c with phase := .begun, window := if s.epoch.state == .staging then 1 else 0 })

/-- Whether neither a COMMIT nor an ABANDON is under way (R286). -/
def epochOpen (s : State) : Bool := s.epoch.state == .stable || s.epoch.state == .staging

/-- COMMIT: checks its step and enters its wait (R287 steps 1 to 3). -/
def execCommit (r : CmdRef) (s : State) : Host.Outcome State Fault Refusal :=
  runUnit s (refKey r) (fun c => isOp 0x23 c && epochOpen s) (fun s c =>
    let st := stepStatus s (dStep c.desc)
    if st ≠ stOK then epochEnd s c.key st else epochBegin s c .committing)

/-- Whether a started staging command of the step has not completed (R287 step 3). -/
def stagingRuns (s : State) (step : Nat) : Bool := s.cmds.any (fun c => isStaging c.desc && !c.refused && dStep c.desc == step)

/-- Leave a COMMIT that changes nothing (R287 step 4). -/
def commitRefused (s : State) (c : Cmd) (st : Nat) : State :=
  epochEnd { s with epoch := { s.epoch with state := if c.window = 1 then .staging else .stable, waiting := 0 } } c.key st

/-- The flip (R287 steps 6 and 7). -/
def epochFlip (s : State) (c : Cmd) : State :=
  let e := s.epoch
  let s := flipAdvisor s
  let s := { s with
    statsCom := s.statsSt, statsSt := []
    epoch := { e with parity := 1 - e.parity, step := nextStep s, state := .stable, waiting := 0,
                      applied := 0, params := 0, poisoned := 0, time := now s } }
  let s := trace s 7 0 0 s.epoch.parity s.epoch.step s.epoch.attempt 0
  epochEnd (setEvt s evFlip) c.key stOK

/-- Whether an evaluation of the advisor is outstanding (R287 step 5). -/
def evalOutstanding (s : State) : Bool := s.advisor.any (fun p => p.2.stale)

/-- EPOCH_FLIP: the COMMIT's waits are over (R287 steps 3 to 7). -/
def execEpochFlip (r : CmdRef) (s : State) : Host.Outcome State Fault Refusal :=
  match findCmd s (refKey r) with
  | some c =>
    if unitsRun s && isOp 0x23 c && c.phase == .begun && s.epoch.state == .committing && s.epoch.waiting == c.key &&
        !(stagingRuns s (dStep c.desc)) then
      let e := s.epoch
      if e.applied ≠ dNum c.desc 0x20 2 || e.params ≠ dNum c.desc 0x22 2 then .next (settle s (commitRefused s c stIncomplete))
      else if bitOf (dNum c.desc 0x24 1) 0 && e.poisoned ≠ 0 then .next (settle s (commitRefused s c stPoisoned))
      else if evalOutstanding s || epochHeld s then .next s
      else .next (settle s (epochFlip s c))
    else .next s
  | none => .next s

/-! ### ABANDON (R288) -/

/-- Empty every group of the step (R152, R288). -/
def abandonGroups (s : State) (step : Nat) : State :=
  (List.range 64).foldl (fun s g => if (groupOf s g).state != .free && (groupOf s g).step == step then emptyGroup s g true else s) s

/-- Stop one command of the abandoned step: a staging command, or a RECV, whose context closes (R270, R288). -/
def abandonCmd (step : Nat) (s : State) (c : Cmd) : State :=
  if dStep c.desc = step && (isStaging c.desc || isRecv c) && (c.phase == .started || c.phase == .begun) then
    let s := if isRecv c then closeCtx s c.key else s
    endCmd { s with txq := s.txq.filter (fun t => t.key != c.key), txState := s.txState.filter (fun t => t.key != c.key) }
      c.key stAbandoned 0 0
  else s

/-- Steps 2 and 3: the groups of the step are emptied and its staging commands stop; `asked` says that it is done. -/
def abandonStop (s : State) (c : Cmd) : State :=
  let s := modCmd (abandonGroups s (dStep c.desc)) c.key (fun c => { c with asked := 1 })
  s.cmds.foldl (abandonCmd (dStep c.desc)) s

/-- The effect of ABANDON: it begins, and goes on to steps 2 and 3 unless a SNAP holds the epoch (R288, R329). -/
def abandonRun (s : State) (c : Cmd) : State :=
  if c.phase == .begun then abandonStop s c
  else
    let st := stepStatus s (dStep c.desc)
    if st ≠ stOK then epochEnd s c.key st
    else
      let b := epochBegin s c .abandoning
      if epochHeld s then b else abandonStop b c

/-- Whether ABANDON begins, or goes on after a SNAP's hold. -/
def abandonReady (s : State) (c : Cmd) : Bool :=
  (runnable s c && epochOpen s) || (unitsRun s && c.phase == .begun && c.asked == 0 && s.epoch.waiting == c.key && !(epochHeld s))

/-- ABANDON (R288 steps 1 to 3). -/
def execAbandon (r : CmdRef) (s : State) : Host.Outcome State Fault Refusal :=
  match findCmd s (refKey r) with
  | some c => if isOp 0x24 c && abandonReady s c then .next (settle s (actUnit s c abandonRun)) else .next s
  | none => .next s

/-- Whether a staging command has not stopped, or a write of one has not been acknowledged (R288 step 3). -/
def stagingWorks (s : State) : Bool :=
  s.cmds.any (fun c => isStaging c.desc && !c.refused && (c.phase == .started || c.phase == .begun || writesPending s c.key))

/-- ABANDON_DONE: every staging command has stopped (R288 steps 3 to 5). -/
def execAbandonDone (r : CmdRef) (s : State) : Host.Outcome State Fault Refusal :=
  match findCmd s (refKey r) with
  | some c =>
    if unitsRun s && isOp 0x24 c && c.phase == .begun && c.asked == 1 && s.epoch.state == .abandoning && s.epoch.waiting == c.key &&
        !(stagingWorks s) then
      let e := s.epoch
      let s1 := clearStagedAdvisor s
      let s2 := { s1 with
        statsSt := []
        epoch := { e with attempt := (e.attempt + 1) % 256, state := .stable, waiting := 0, applied := 0, params := 0, poisoned := 0 } }
      let s3 := foundRecords s2 (fun p => p.1 == 2)
      let s4 := trace s3 7 1 0 s3.epoch.parity s3.epoch.step s3.epoch.attempt 0
      .next (settle s (epochEnd (setEvt (bump s4 updAbandonsCount 1) evAbandon) c.key stOK))
    else .next s
  | none => .next s

/-! ### Statistics words (R285) -/

/-- Word `w` of a statistics entry. -/
def statWord (x : StatEnt) (w : Nat) : Nat :=
  match w with
  | 0 => x.applies + x.nf * 2 ^ 32
  | 1 => x.gsq
  | 2 => x.usq
  | _ => x.gmax

end Sys2Proof.Machine
end

