-- ==== Sys2Proof/Machine/Checks.lean ====
section
/-! DEFINITION. The checks of a command at its start (12 R300): descriptor, records, shapes, engine state, with the
refusals of every chapter, and RESULT of a failure (R321). -/

namespace Sys2Proof.Machine

/-- RESULT of a failure: descriptor field, field of the failing record, field that leads to that record (R321). -/
def failResult (off rec via : Nat) : Nat := off + rec * 2 ^ 8 + via * 2 ^ 16

/-- A failed check: status and RESULT. -/
abbrev Fail := Nat × Nat

/-- A check of one field: its offset, whether it fails, the status it gives. -/
abbrev Check := Nat × Bool × Nat

/-- The first failing check in ascending offset; checks of one offset keep their order. -/
def firstFail (l : List Check) : Option Fail :=
  ((sortBy (·.1) l).find? (·.2.1)).map (fun x => (x.2.2, failResult x.1 0xFF 0xFF))

/-- The first failure of a list. -/
def firstOf (l : List (Option Fail)) : Option Fail := l.findSome? id

/-! ### Steps 1 and 2: opcode and class (R12, R310) -/

def opcodes : List Nat :=
  [0x00, 0x01, 0x02, 0x03, 0x04, 0x05, 0x06, 0x07, 0x08, 0x09, 0x10, 0x11, 0x18, 0x19, 0x20, 0x21, 0x22, 0x23, 0x24,
    0x28, 0x29, 0x30, 0x31, 0x32, 0x38]

/-- Whether class 0 runs the command (R310). -/
def class0Runs (d : List Byte) : Bool :=
  [0x00, 0x07, 0x23, 0x24, 0x28, 0x30, 0x31].contains (dOp d) || (dOp d == 0x32 && ledgerOp d ≤ 4)

/-! ### Step 3, first part: reserved bits and encodings (R299, R301 to R305) -/

/-- A named field: offset, bytes, the bits that are not reserved. -/
abbrev NField := Nat × Nat × Nat

/-- A field with every bit named. -/
def whole (off n : Nat) : NField := (off, n, 2 ^ (8 * n) - 1)

/-- The reserved bits of the header. -/
def headerFields : List NField := [(0x01, 1, 7), (0x02, 2, 0), (0x15, 1, 3), (0x16, 2, 0)]

def productFields : List NField :=
  [whole 0x20 8, whole 0x28 8, whole 0x30 8, whole 0x38 8, whole 0x40 8, whole 0x48 8, whole 0x50 4, whole 0x54 3,
    (0x57, 1, 0x3F), whole 0x58 3, (0x5B, 1, 0x3F), whole 0x5C 4, whole 0x60 4, (0x64, 2, 0x1FF), (0x66, 1, 0x3F),
    (0x67, 1, 0x1F), (0x68, 1, 7), (0x69, 7, 0), whole 0x70 8, (0x78, 8, 0)]

/-- The fields of a command's body. -/
def bodyFields (op : Nat) : List NField :=
  match op with
  | 0x01 => [whole 0x20 8, (0x67, 1, 0x10)]
  | 0x02 => productFields
  | 0x03 => productFields
  | 0x04 => productFields
  | 0x05 => productFields
  | 0x06 => [whole 0x20 8, whole 0x28 8, whole 0x30 4, whole 0x34 4, whole 0x38 2, whole 0x3A 2, (0x3C, 1, 0xF), (0x3D, 1, 0x3F)]
  | 0x07 => [whole 0x20 8, whole 0x28 4, whole 0x2C 3, (0x2F, 1, 0x3F), whole 0x30 3, (0x33, 1, 0x3F), (0x34, 1, 0xF)]
  | 0x08 => [whole 0x20 8, whole 0x28 4, (0x2C, 2, 0x3FFF), (0x2E, 1, 0x3F), (0x2F, 1, 3), whole 0x30 8]
  | 0x09 => [whole 0x20 8, whole 0x28 4, (0x2C, 2, 0x3FFF), (0x2E, 1, 0x3F), (0x2F, 1, 3), whole 0x30 8]
  | 0x10 => [whole 0x20 8, whole 0x28 8]
  | 0x11 => [whole 0x20 8, whole 0x28 8, whole 0x30 8, whole 0x38 8, (0x40, 1, 3)]
  | 0x18 => [whole 0x20 8, whole 0x28 8, whole 0x30 8, whole 0x38 8, whole 0x40 4, whole 0x44 4, whole 0x48 2, (0x4A, 1, 0xF), (0x4B, 1, 0x3F), (0x4C, 1, 0x1F)]
  | 0x19 => [whole 0x20 8, whole 0x28 8, whole 0x30 8, whole 0x38 8, whole 0x40 4, whole 0x44 4, whole 0x48 2, (0x4A, 1, 0xF), (0x4B, 1, 0x3F), (0x4C, 1, 0x1F)]
  | 0x20 => [whole 0x20 8, whole 0x28 8, (0x30, 2, 0xFFF), (0x32, 1, 0x3F), (0x33, 1, 0x3F)]
  | 0x21 => [whole 0x20 8, whole 0x28 8, (0x30, 2, 0xFFF), (0x32, 1, 0x3F), (0x33, 1, 0x3F)]
  | 0x22 => [whole 0x20 8, whole 0x28 8, (0x30, 1, 0x3F), (0x31, 1, 7), (0x32, 1, 7), whole 0x33 1]
  | 0x23 => [whole 0x20 2, whole 0x22 2, (0x24, 1, 1)]
  | 0x28 => [whole 0x20 8, whole 0x28 8, whole 0x30 8, whole 0x38 2, whole 0x3A 1, (0x3B, 1, 0xF), whole 0x40 8]
  | 0x29 => [whole 0x20 8, whole 0x28 8, whole 0x30 8, whole 0x38 2, (0x3B, 1, 0xE), whole 0x3C 4]
  | 0x30 => [whole 0x20 2, whole 0x24 64]
  | 0x31 => [whole 0x20 8, whole 0x28 8]
  | 0x32 => [whole 0x20 8, (0x28, 1, 0x3F), (0x2A, 2, 0xFFF), (0x2C, 2, 0x1FFF)]
  | 0x38 => [whole 0x20 8, whole 0x28 8, whole 0x30 1]
  | _ => []

/-- Whether a field holds a reserved bit. -/
def fieldReserved (d : List Byte) (f : NField) : Bool :=
  let v := dNum d f.1 f.2.1
  (v &&& f.2.2) != v

/-- The reserved-bit checks: the named fields, and every body byte that no field names (R299). -/
def reservedChecks (d : List Byte) : List Check :=
  let fs := bodyFields (dOp d)
  let gaps := ((List.range 0x60).map (0x20 + ·)).filter (fun b => !(fs.any (fun f => f.1 ≤ b && b < f.1 + f.2.1)))
  (headerFields ++ fs).map (fun f => (f.1, fieldReserved d f, stBadEncoding)) ++
    gaps.map (fun b => (b, dNum d b 1 != 0, stBadEncoding))

def gclearOpen? (d : List Byte) : Bool := gclearMode d == 0
def saAccum (d : List Byte) : Bool := dOp d == 0x19 && bitOf (dNum d 0x4C 1) 0
def saTdest (d : List Byte) : Bool := saAccum d && bitOf (dNum d 0x4C 1) 1
def saTfmt (d : List Byte) : Nat := bitsOf (dNum d 0x4A 1) 0 4

/-- Whether TFMT is a format the command accepts (R233). -/
def tfmtOk (d : List Byte) : Bool := if saAccum d then saTfmt d == 0 || saTfmt d == 0xA else saTfmt d ≤ 4

/-- Encodings that are reserved or that the field's role does not accept, with the statuses of their chapters. A COPY is held to RND too: R278
exempts it from other rows by name, not from this one (DEDUCED, log 66). -/
def encodingChecks (d : List Byte) : List Check :=
  let derivOk := bitsOf (dNum d 0x66 1) 0 4 ≤ 8
  let storeRnd : Check := (0x68, bitsOf (dNum d 0x68 1) 0 2 == 3, stBadFormat)
  match dOp d with
  | 0x02 => [storeRnd]
  | 0x03 => [(0x66, !derivOk, stBadDeriv), storeRnd]
  | 0x04 => [(0x66, !derivOk, stBadDeriv)]
  | 0x05 => [(0x66, !derivOk, stBadDeriv), storeRnd]
  | 0x06 => [(0x3C, bitsOf (dNum d 0x3C 1) 0 4 != 0 && bitsOf (dNum d 0x3C 1) 0 4 != 0xA, stBadFormat)]
  | 0x07 =>
    [(0x33, gclearMode d == 3, stBadEncoding), (0x33, gclearOpen? d && bitsOf (dNum d 0x33 1) 4 2 == 3, stBadFormat),
      (0x34, gclearOpen? d && !(dAdvUse d) && bitsOf (dNum d 0x34 1) 0 4 != 0 && bitsOf (dNum d 0x34 1) 0 4 != 0xA, stBadFormat)]
  | 0x18 => [(0x4A, !(tfmtOk d), stBadFormat), (0x4C, bitsOf (dNum d 0x4C 1) 2 2 == 3, stBadFormat)]
  | 0x19 => [(0x4A, !(tfmtOk d), stBadFormat), (0x4C, !(saTdest d) && bitsOf (dNum d 0x4C 1) 2 2 == 3, stBadFormat)]
  | 0x20 => [(0x33, rsMode d == 3, stBadEncoding)]
  | 0x22 => [(0x31, 4 < apOpt d, stBadEncoding), (0x32, apRnd d == 3, stBadFormat)]
  | 0x32 => [(0x28, 6 < ledgerOp d, stBadEncoding)]
  | 0x38 => [(0x28, bitOf (dNum d 0x28 8) 63, stBadEncoding), (0x30, dNum d 0x30 1 == 0 || 3 < dNum d 0x30 1, stBadEncoding)]
  | _ => []

/-! ### Step 3, second part: counts, combinations, alignments -/

/-- Whether the row count of the command is 0 (R121, R244). -/
def zeroRows (d : List Byte) : Bool :=
  match cmdRows d with
  | some n => n == 0
  | none => dOp d == 0x06 && (dNum d 0x30 4 == 0 || dNum d 0x34 4 == 0)

/-- Whether DFUNC and DSRC are a pair R134 marks invalid. -/
def derivInvalid (d : List Byte) : Bool :=
  let f := bitsOf (dNum d 0x66 1) 0 4
  let q := bitsOf (dNum d 0x66 1) 4 2
  (q == 0 && f != 0) || (f == 0 && q != 0) || (q == 1 && (f == 7 || f == 8))

def tagsCheck (d : List Byte) : Check := (0x18, dTags d % 4 != 0, stBadLayout)

/-- A command that writes into a group with stamp 0 (R155); without rows it is not refused (R244). -/
def stampCheck (d : List Byte) : Check :=
  (0x08, dStamp d == 0 && !(writtenGroups d).isEmpty && !(zeroRows d), stBadStamp)

def productChecks (d : List Byte) : List Check :=
  let op := dOp d
  let f := bitsOf (dNum d 0x66 1) 0 4
  let grad := op != 2
  [stampCheck d, tagsCheck d, (0x50, op == 5 && 4096 < pM d, stBadShape), (0x54, pNExt d == 0, stBadShape),
    (0x57, pAdapt d && pAgroup d == pGroup d, stBadShape), (0x58, pKExt d == 0, stBadShape),
    (0x5C, grad && (f == 4 || f == 5) && (pAlpha d).nonFinite, stBadDeriv),
    (0x64, op == 5 && pMode d 2 && (pRank d == 0 || 256 < pRank d), stBadShape),
    (0x66, grad && derivInvalid d, stBadDeriv), (0x67, op == 5 && pMode d 2 && !(pMode d 1), stBadShape),
    (0x67, (op == 4 || op == 5) && pSform d, stBadForm)]

/-- The home pitch a GCLEAR OPEN needs (R147, R302). -/
def gclearPitch (d : List Byte) : Nat :=
  dNum d 0x30 3 * (if dAdvUse d || bitsOf (dNum d 0x34 1) 0 4 != 0 then 8 else 4)

def gclearChecks (d : List Byte) : List Check :=
  if gclearOpen? d then
    [(0x20, dNum d 0x20 8 % 64 != 0, stBadShape), (0x28, dNum d 0x28 4 % 64 != 0, stBadShape),
      (0x28, dNum d 0x28 4 < gclearPitch d, stBadShape), (0x2C, dNum d 0x2C 3 == 0, stBadShape),
      (0x2C, 16384 < ceilDiv (dNum d 0x2C 3) 256 * ceilDiv (dNum d 0x30 3) 256, stBadShape), (0x30, dNum d 0x30 3 == 0, stBadShape)]
  else []

/-- The local byte range of the table of GATHER or SCATTER, `e` rows from TBASE (R233). -/
def tableBox (d : List Byte) : Int × Int :=
  let b : Int := (dNum d 0x28 8 % 2 ^ 48 : Nat)
  let x := ((dNum d 0x44 4 : Int) - 1) * signedOf (dNum d 0x30 8) 64
  (b + min 0 x, b + max 0 x + (runBytes (codeBits (saTfmt d)) (dNum d 0x48 2) : Int) - 1)

def boxOutside (b : Int × Int) : Bool := b.1 < 0 || (2 ^ 48 - 1 : Nat) < b.2

/-- The checks of GATHER and SCATTER on the descriptor alone (R233). TROWS above 2^31 - 1, outside the range R232 gives the field, has no status
there: it is taken as E (DESIGN CHOICE, log 67). -/
def rowsChecks (d : List Byte) : List Check :=
  let eb := codeBits (saTfmt d) / 8
  let cols := dNum d 0x48 2
  let mem := !(saTdest d)
  [stampCheck d, tagsCheck d, (0x28, mem && dNum d 0x28 8 % max 1 (if saTfmt d == 0 then 4 else if saTfmt d == 1 || saTfmt d == 2 then 2 else 1) != 0, stBadLayout),
    (0x28, mem && dNum d 0x44 4 != 0 && cols != 0 && boxOutside (tableBox d), stAddrRange),
    (0x30, mem && dOp d == 0x19 && (signedOf (dNum d 0x30 8) 64).natAbs < cols * eb, stBadLayout),
    (0x38, dNum d 0x38 8 % 4 != 0, stBadLayout), (0x40, 2 ^ 24 < dNum d 0x40 4, stBadShape),
    (0x40, saTdest d && 16384 < dNum d 0x40 4, stBadShape), (0x44, dNum d 0x44 4 == 0, stBadShape),
    (0x48, cols == 0 || 16384 < cols, stBadShape), (0x48, 65536 < cols * eb, stBadShape)]

def ledgerChecks (d : List Byte) : List Check :=
  let recs := ledgerOp d == 5 || ledgerOp d == 6
  [(0x20, (recs && ledgerAddr d % 32 != 0) || (!recs && ledgerList d && ledgerAddr d % 4 != 0), stBadLayout),
    (0x28, recs && ledgerList d, stBadShape), (0x2A, !(ledgerList d) && 4096 < ledgerFirst d + ledgerCount d, stBadShape),
    (0x2C, ledgerCount d == 0 || 4096 < ledgerCount d, stBadShape)]

/-- The checks that need neither a record nor engine state. -/
def aloneChecks (d : List Byte) : List Check :=
  match dOp d with
  | 0x02 => productChecks d
  | 0x03 => productChecks d
  | 0x04 => productChecks d
  | 0x05 => productChecks d
  | 0x06 =>
    let p := signedOf (dNum d 0x28 8) 64
    let sz := if bitsOf (dNum d 0x3C 1) 0 4 == 0 then 4 else 8
    [stampCheck d, (0x28, p ≤ 0 || p.natAbs % sz != 0, stBadLayout)]
  | 0x07 => gclearChecks d
  | 0x10 => [(0x20, dNum d 0x20 8 % 64 != 0, stBadLayout)]
  | 0x11 => [(0x28, dNum d 0x28 8 % 64 != 0, stBadLayout), (0x30, dNum d 0x30 8 % 64 != 0, stBadLayout)]
  | 0x18 => rowsChecks d
  | 0x19 => rowsChecks d
  | 0x20 => [(0x28, rsDigests d % 16 != 0, stBadLayout)]
  | 0x21 => [stampCheck d, (0x28, rsDigests d % 16 != 0, stBadLayout)]
  | 0x31 => [(0x20, dNum d 0x20 8 % 8 != 0, stBadLayout)]
  | 0x32 => ledgerChecks d
  | 0x38 => [(0x20, dNum d 0x20 8 == 0 || dNum d 0x20 8 % 64 != 0, stBadLayout)]
  | _ => []

/-- Steps 2 and 3 for a command of a queue of class `cls`. -/
def descriptorFail (cls : Nat) (d : List Byte) : Option Fail :=
  if cls == 0 && !(class0Runs d) then some (stBadClass, 0)
  else firstOf [firstFail (reservedChecks d ++ encodingChecks d), firstFail (aloneChecks d)]

/-! ### Step 4: layout records (R172, R174) -/

/-- The roles of a layout record (R34). -/
inductive Role where
  | streamed
  | stationary
  | saved
  | mask
  | store
  | rows
  | accum
  deriving DecidableEq, Repr

def roleKind : Role → Nat
  | .mask => 2
  | _ => 0

/-- Whether FMT, MX and TEXP are accepted in the role (R34, R35). -/
def roleFormat (r : Role) (code : Nat) (mx : Bool) (texp : Int) : Bool :=
  let mxOk := if mx then 3 ≤ code && code ≤ 7 else !(5 ≤ code && code ≤ 7)
  match r with
  | .streamed => code ≤ 8 && mxOk && !(code == 8 && texp == -128)
  | .stationary => code ≤ 8 && mxOk && !(code == 8 && texp == -128)
  | .saved => code ≤ 4 && !mx
  | .mask => true
  | .store => if mx then 3 ≤ code && code ≤ 7 else code ≤ 4
  | .rows => code ≤ 4 && !mx
  | .accum => (code == 0 || code == 0xA) && !mx

/-- The reserved-field and dimension checks of row 3 of R174; a scale record reserves its AXIS and EXTENT fields (R172). -/
def structureChecks (scale : Bool) (l : Layout) : List (Bool × Nat × Nat) :=
  let b := l.raw
  let ext := fun d => fieldAt b (0x10 + 4 * d) 4
  let mask := l.kind == 2
  let extBad := fun d =>
    if scale then ext d != 0 else 2 ^ 24 ≤ ext d || (d < l.ndim && ext d == 0) || (l.ndim ≤ d && ext d != 0)
  [(bitOf (fieldAt b 8 1) 7, stBadLayout, 0x08), (mask && l.mx, stBadLayout, 0x08), (l.ndim == 0 || 4 < l.ndim, stBadLayout, 0x0A),
    ((if scale then fieldAt b 0xB 1 != 0 else 2 ^ l.ndim ≤ fieldAt b 0xB 1), stBadLayout, 0x0B), (fieldAt b 0xC 4 != 0, stBadLayout, 0x0C)] ++
    (List.range 4).map (fun d => (extBad d, stBadLayout, 0x10 + 4 * d)) ++
    (List.range 3).map (fun d => (l.ndim ≤ d + 1 && fieldAt b (0x20 + 8 * d) 8 != 0, stBadLayout, 0x20 + 8 * d)) ++
    [(mask && l.scale != 0, stBadLayout, 0x38)]

/-- The alignment and magnitude of strides (R174, R175). -/
def strideChecks (l : Layout) : List (Bool × Nat × Nat) :=
  (List.range 3).map (fun d =>
    (d + 1 < l.ndim && 1 < extOf l (d + 1) && ((strideOf l (d + 1)).natAbs % layoutAlign l != 0 || 2 ^ 47 ≤ (strideOf l (d + 1)).natAbs),
      stBadLayout, 0x20 + 8 * d))

/-- The rows of R174 for an element or mask record, in order. -/
def layoutChecks (role : Role) (shape : Option (Nat × Nat)) (store : Bool) (l : Layout) : List (Bool × Nat × Nat) :=
  let elem := l.kind == 0
  [(l.addr % 64 != 0, stBadLayout, 0xFF), (l.kind != roleKind role, stBadLayout, 0x08)] ++ structureChecks false l ++
    [(elem && !(roleFormat role l.code l.mx l.texp), stBadFormat, 0x08),
      (elem && (if l.mx then l.scale == 0 || l.scale % 64 != 0 else l.scale != 0), stBadLayout, 0x08),
      ((shape.map (fun x => axisExtent l true != x.1 || axisExtent l false != x.2)).getD false, stBadLayout, 0x0B),
      (l.base % layoutAlign l != 0, stBadLayout, 0x00)] ++ strideChecks l ++
    [(boxOutside (layoutBox l), stAddrRange, 0x00),
      (role == .stationary && extOf l 0 % 256 != 0 && extOf l 0 != axisExtent l (axisRow l 0), stBadLayout, 0x10),
      (store && extOf l 0 % groupElems (layoutBits l) != 0, stBadLayout, 0x10)]

/-- The scale record of an element record, its extents taken from it (R172). -/
def scaleOf (l sc : Layout) : Layout := { sc with kind := 1, axis := l.axis, ext := ceilDiv (extOf l 0) 32 :: l.ext.drop 1 }

/-- The rows of R174 for a scale record of `l`. -/
def scaleChecks (l sc : Layout) : List (Bool × Nat × Nat) :=
  [(sc.kind != 1, stBadLayout, 0x08)] ++ structureChecks true { sc with kind := 1 } ++
    [(sc.ndim != l.ndim, stBadLayout, 0x0A)] ++ strideChecks (scaleOf l sc) ++
    [(boxOutside (layoutBox (scaleOf l sc)), stAddrRange, 0x00)]

/-- The first failing row, as a failure of the record named at `off` through `via`. -/
def recordFail (off via : Nat) (l : List (Bool × Nat × Nat)) : Option Fail :=
  (l.find? (·.1)).map (fun x => (x.2.1, failResult off x.2.2 via))

/-- What the checks of one record find: in step 4, and among the extents against the command's shape, which are step 5 (R300). -/
abbrev RecFail := Option Fail × Option Fail

/-- The findings on several records, each in its order. -/
def joinFails (l : List RecFail) : RecFail := (firstOf (l.map (·.1)), firstOf (l.map (·.2)))

/-- A layout record as a command reads it at its start (R176). -/
def startLayout (s : State) (addr : Nat) : Layout := parseLayout addr (cachedBytes s addr)

/-- Check the layout record at `addr` and its scale record. A record whose first failing row of R174 is the one on its extents fails in step 5
of R300, whatever its later rows hold (DEDUCED, log 68). -/
def layoutFail (s : State) (off via addr : Nat) (role : Role) (shape : Option (Nat × Nat)) (store : Bool) : RecFail :=
  let l := startLayout s addr
  let f := recordFail off via (layoutChecks role none store l)
  let g := recordFail off via (layoutChecks role shape store l)
  (firstOf [if g = f then f else none,
    if l.mx && l.kind == 0 then recordFail off (if via = 0xFF then 0x38 else via) (scaleChecks l (startLayout s l.scale)) else none],
    if g = f then none else g)

/-! ### Tile tables (R199, R203) -/

/-- Check the tile table named at `off`; its K and output extents when the command gives them. -/
def tableFail (s : State) (off addr : Nat) (shape : Option (Nat × Nat)) : RecFail :=
  let t := tabAt s addr
  let b := t.raw
  (recordFail off 0xFF
    [(addr % 64 != 0, stBadLayout, 0xFF), (fieldAt b 0 4 != 0x54544246, stBadTile, 0x00), (fieldAt b 4 2 != 1, stBadTile, 0x04),
      (bitsOf (fieldAt b 6 1) 5 3 != 0, stBadTile, 0x06), (t.kb != ceilDiv t.kext 256, stBadTile, 0x08),
      (t.ob != ceilDiv t.next 256, stBadTile, 0x0C), (fieldAt b 0x14 1 != 1, stBadTile, 0x14),
      (leNat ((b.drop 0x15).take 35) != 0, stBadTile, 0x15), (!(roleFormat .stationary t.code t.mx t.texp), stBadFormat, 0x06)],
    recordFail off 0xFF [((shape.map (fun x => t.kext != x.1)).getD false, stBadTile, 0x08), ((shape.map (fun x => t.next != x.2)).getD false, stBadTile, 0x0C)])

/-- The stationary operand named at `off`: a layout record or a tile table (R198). -/
def stationaryFail (s : State) (off addr : Nat) (sform plain : Bool) (shape : Option (Nat × Nat)) : RecFail :=
  if sform then tableFail s off addr shape
  else layoutFail s off 0xFF addr .stationary (shape.map (fun x => if plain then x else (x.2, x.1))) false

/-! ### Choice blocks (R302) -/

/-- Format code and MX of a ladder position (R78). -/
def ladderFormat (pos : Nat) : Nat × Bool :=
  match pos with
  | 0 => (7, true) | 1 => (6, true) | 2 => (5, true) | 3 => (3, false) | 4 => (4, false) | 5 => (3, true)
  | 6 => (4, true) | 7 => (2, false) | 8 => (1, false) | _ => (0, false)

/-- The output record a store uses: that of the live dX format under ADV_USE (R302). -/
def outRecord (s : State) (d : List Byte) : Nat :=
  dNum d 0x40 8 + if dAdvUse d then 64 * (layerOf s (dAdvId d)).live.dxLive else 0

/-- Check the OUT field: the block's own conditions, then the record that is used. -/
def outFail (s : State) (d : List Byte) (shape : Nat × Nat) : RecFail :=
  let a := dNum d 0x40 8
  let block := (List.range 10).map (fun i => startLayout s (a + 64 * i))
  let l0 := startLayout s a
  joinFails
    [(if dAdvUse d then
        firstOf [recordFail 0x40 0xFF [(a % 64 != 0, stBadLayout, 0xFF)],
          firstOf ((block.zip (List.range 10)).map (fun x =>
            recordFail 0x40 0xFF [((x.1.code, x.1.mx) != ladderFormat x.2, stBadLayout, 0x08),
              (axisExtent x.1 true != axisExtent l0 true || axisExtent x.1 false != axisExtent l0 false, stBadLayout, 0x0B)]))]
      else none, none),
      layoutFail s 0x40 0xFF (outRecord s d) .store (some shape) true]

/-! ### Job, parameter and hyperparameter records (R250, R273, R277, R278, R440) -/

/-- Whether a working copy in an MX format fails R440. -/
def wrecMxBad (l : Layout) (cols : Nat) : Bool :=
  l.mx && (axisRow l 0 || !(extOf l 0 % 32 == 0 || extOf l 0 == cols))

/-- The checks of R250 on a job record; `work` when the mode uses the working copies. -/
def jobChecks (s : State) (addr : Nat) (b : List Byte) (work : Bool) : List (Bool × Nat × Nat) :=
  let j := parseJob b
  let wbad := fun a => work && (a == 0 || wrecMxBad (startLayout s a) j.cols)
  [(addr % 64 != 0, stBadJob, 0xFF), (fieldAt b 0 4 != 0x4A425246, stBadJob, 0x00), (fieldAt b 4 2 != 1, stBadJob, 0x04),
    (j.shards == 0 || 4096 < j.shards || j.shards ≤ j.mine || j.tiles < j.shards, stBadJob, 0x08),
    (bitsOf (fieldAt b 0xC 1) 1 7 != 0, stBadJob, 0x0C), (fieldAt b 0xD 3 != 0, stBadJob, 0x0D),
    (j.tiles != ceilDiv j.rows 256 * ceilDiv j.cols 256, stBadJob, 0x10), (fieldAt b 0x1C 4 != 0, stBadJob, 0x1C),
    (j.peers == 0 || j.peers % 8 != 0, stBadJob, 0x20), (j.res % 64 != 0, stBadJob, 0x28), (wbad j.wrec0, stBadJob, 0x30),
    (wbad j.wrec1, stBadJob, 0x38), (leNat ((b.drop 0x40).take 64) != 0, stBadJob, 0x40)]

/-- Check a job record named at `off` (through `via`), and the working copies when the mode uses them. -/
def jobFail (s : State) (off via addr : Nat) (work : Bool) : RecFail :=
  let b := s.bytes addr 128
  let j := parseJob b
  let shape := some (j.rows, j.cols)
  joinFails [(recordFail off via (jobChecks s addr b work), none),
    if work then joinFails [layoutFail s off (if via = 0xFF then 0x30 else via) j.wrec0 .store shape true,
      layoutFail s off (if via = 0xFF then 0x38 else via) j.wrec1 .store shape true] else (none, none)]

/-- The addresses of a parameter record that OPT needs: 0 to 3 the optimizers, 4 COPY (R278, R279). -/
def paramChecks (addr : Nat) (b : List Byte) (opt : Nat) : List (Bool × Nat × Nat) :=
  let p := parseParam b
  let need := fun (a : Nat) => a == 0 || a % 64 != 0
  let both := fun (u : Bool) (x : Nat × Nat) (o : Nat) =>
    if opt = 4 then [((x.1 == 0) != (x.2 == 0), stBadParam, o), (x.1 != 0 && x.1 % 64 != 0, stBadParam, o), (x.2 != 0 && x.2 % 64 != 0, stBadParam, o + 8)]
    else [(u && need x.1, stBadParam, o), (u && need x.2, stBadParam, o + 8)]
  [(addr % 64 != 0, stBadParam, 0xFF), (fieldAt b 0 4 != 0x50524D46, stBadParam, 0x00), (fieldAt b 4 2 != 1, stBadParam, 0x04),
    (fieldAt b 6 2 != 0, stBadParam, 0x06), (fieldAt b 0xC 4 != 0, stBadParam, 0x0C), (need p.job, stBadParam, 0x10),
    (need p.w.1, stBadParam, 0x18), (need p.w.2, stBadParam, 0x20)] ++ both (usesM opt) p.m 0x28 ++ both (usesV opt) p.v 0x38 ++
    [(leNat ((b.drop 0x48).take 56) != 0, stBadParam, 0x48)]

/-- Check a parameter record and its job record. -/
def paramFail (s : State) (off addr opt : Nat) (work : Bool) : RecFail :=
  let b := s.bytes addr 128
  joinFails [(recordFail off 0xFF (paramChecks addr b opt), none), jobFail s off 0x10 (parseParam b).job work]

/-- The hyperparameters an OPT uses (R277). -/
def hyperUses (opt o : Nat) : Bool :=
  o == 0x00 || o == 0x1C || o == 0x20 || (o == 0x04 && (opt == 1 || opt == 2)) || (opt == 3 && o != 0x04)

def hyperFail (s : State) (off addr opt : Nat) : Option Fail :=
  let b := s.bytes addr 64
  recordFail off 0xFF ([(addr % 64 != 0, stBadHyper, 0xFF)] ++
    (List.range 16).map (fun i =>
      let o := 4 * i
      let v := fieldAt b o 4
      (if o < 0x2C then hyperUses opt o && (f32Val v).nonFinite else v != 0, stBadHyper, o)))

/-! ### Steps 4 and 5 by command -/

/-- Whether a first-level record could not be fetched (R318). -/
def fetchFail (recFail : List Nat) (off : Nat) : Option Fail :=
  if recFail.contains off then some (stMportError, failResult off 0xFF 0xFF) else none

/-- A record at its turn: alignment before the fetch, then the fetch, then the rest. -/
def recordTurn (recFail : List Nat) (off : Nat) (f : Option Fail) : Option Fail :=
  match f with
  | some x => if x.2 == failResult off 0xFF 0xFF then some x else (fetchFail recFail off).or (some x)
  | none => fetchFail recFail off

/-- Bytes of a stationary operand, elements and scales (R303). -/
def operandBytes (l : Layout) : Nat :=
  let outer := (dims l).foldl (fun p d => if d = 0 then p else p * extOf l d) 1
  outer * (runBytes (layoutBits l) (extOf l 0) + if l.mx then ceilDiv (extOf l 0) 32 else 0)

/-- The records of a product command in ascending field order (R301). -/
def productRecordFails (s : State) (d : List Byte) : List (Nat × RecFail) :=
  let op := dOp d
  let st := fun (off : Nat) (role : Role) (cols : Nat) => (off, layoutFail s off 0xFF (dNum d off 8) role (some (pM d, cols)) false)
  [st 0x20 .streamed (pKExt d)] ++
    (if pStationary d then [(0x28, stationaryFail s 0x28 (pW d) (pSform d) (op == 2) (some (pKExt d, pNExt d)))] else []) ++
    (if pOuter d then [st 0x30 .streamed (pNExt d)] else []) ++
    (if pDsrc d = 0 then [] else [st 0x38 (if pDsrc d = 3 then .mask else .saved) (pKExt d)]) ++
    (if pStores d then [(0x40, outFail s d (pM d, pNExt d))] else []) ++ (if pAdapt d then [st 0x48 .streamed (pRank d)] else [])

/-- The records of the PLIST of a SNAP with UNDERCOAT (R326). -/
def plistFail (s : State) (d : List Byte) : RecFail :=
  if bitOf (dNum d 0x3B 1) 3 then
    joinFails ((List.range (dNum d 0x38 2)).map (fun i => paramFail s 0x30 (dNum d 0x30 8 + 128 * i) 0 false))
  else (none, none)

/-- The records a command names, in ascending order of their fields, each with what its checks find. -/
def recordFails (s : State) (d : List Byte) : List (Nat × RecFail) :=
  match dOp d with
  | 0x01 => [(0x20, stationaryFail s 0x20 (dNum d 0x20 8) (pSform d) false none)]
  | 0x02 => productRecordFails s d
  | 0x03 => productRecordFails s d
  | 0x04 => productRecordFails s d
  | 0x05 => productRecordFails s d
  | 0x11 => [(0x20, layoutFail s 0x20 0xFF (dNum d 0x20 8) .stationary none false)]
  | 0x18 => [(0x20, layoutFail s 0x20 0xFF (dNum d 0x20 8) .rows (some (dNum d 0x40 4, dNum d 0x48 2)) true)]
  | 0x19 => [(0x20, layoutFail s 0x20 0xFF (dNum d 0x20 8) (if saAccum d then .accum else .rows) (some (dNum d 0x40 4, dNum d 0x48 2)) false)]
  | 0x20 => [(0x20, jobFail s 0x20 0xFF (dNum d 0x20 8) (rsMode d == 1))]
  | 0x21 => [(0x20, jobFail s 0x20 0xFF (dNum d 0x20 8) (rsMode d == 1))]
  | 0x22 => [(0x20, paramFail s 0x20 (dNum d 0x20 8) (apOpt d) true)] ++
      (if apOpt d = 4 then [] else [(0x28, hyperFail s 0x28 (dNum d 0x28 8) (apOpt d), none)])
  | 0x28 => [(0x30, plistFail s d)]
  | 0x29 => [(0x30, (none, none))]
  | _ => []

/-- Step 5: shapes and combinations that involve records. -/
def shapeFail (s : State) (d : List Byte) : Option Fail :=
  match dOp d with
  | 0x01 =>
    let n := if pSform d then (tabAt s (dNum d 0x20 8)).bytes else operandBytes (startLayout s (dNum d 0x20 8))
    if 2 ^ 22 < n then some (stBadShape, failResult 0x20 (if pSform d then 0x38 else 0x08) 0xFF) else none
  | 0x11 => if axisRow (startLayout s (dNum d 0x20 8)) 0 then some (stBadLayout, failResult 0x20 0x0B 0xFF) else none
  | 0x19 =>
    if 65536 < dNum d 0x48 2 * (codeBits (startLayout s (dNum d 0x20 8)).code / 8) then some (stBadShape, failResult 0x20 0x08 0xFF) else none
  | 0x20 =>
    if rsMode d == 0 && rsThin d && (parseJob (s.bytes (dNum d 0x20 8) 128)).res == 0 then
      some (stBadShape, failResult 0x20 0x28 0xFF) else none
  | 0x22 =>
    let j := parseJob (s.bytes (parseParam (s.bytes (dNum d 0x20 8) 128)).job 128)
    let a := startLayout s j.wrec0
    let b := startLayout s j.wrec1
    if apOpt d == 4 && (a.code != b.code || a.mx != b.mx || (a.code == 8 && a.texp != b.texp)) then
      some (stBadLayout, failResult 0x20 0x08 0x10) else none
  | _ => none

/-- Steps 4 and 5; a command without rows is not checked further (R244). -/
def recordsFail (s : State) (recFail : List Nat) (d : List Byte) : Option Fail :=
  if zeroRows d then none
  else
    let fs := recordFails s d
    firstOf (fs.map (fun x => recordTurn recFail x.1 x.2.1) ++ fs.map (·.2.2) ++ [shapeFail s d])

/-! ### The fetch of the records (R176, R300, R318) -/

/-- A record to fetch: the descriptor field that names it, its address, its bytes, whether it is a layout record. -/
abbrev Need := Nat × Nat × Nat × Bool

/-- The state as the command processor reads the records of a fetched command. -/
def recView (s : State) (f : Fetched) : State := { s with rbuf := f.recs }

/-- Whether the bytes of a record are at hand: a layout record in the cache, or fetched. -/
def recKnown (s : State) (f : Fetched) (n : Need) : Bool :=
  (n.2.2.2 && (tfind s.lcache n.2.1).isSome) || (List.range n.2.2.1).all (fun i => (tfind f.recs (n.2.1 + i)).isSome)

/-- A layout record and, once it is known, its scale record. A misaligned record is not read. -/
def layoutNeed (s : State) (f : Fetched) (off a : Nat) : List Need :=
  if a % 64 != 0 then []
  else (off, a, 64, true) :: (if recKnown s f (off, a, 64, true) then
    let l := startLayout (recView s f) a
    if l.mx && l.kind == 0 && l.scale != 0 && l.scale % 64 == 0 then [(off, l.scale, 64, true)] else [] else [])

/-- A job record and, once it is known, the working copies' records. -/
def jobNeed (s : State) (f : Fetched) (off a : Nat) (work : Bool) : List Need :=
  if a % 64 != 0 then []
  else (off, a, 128, false) :: (if work && recKnown s f (off, a, 128, false) then
    let j := parseJob ((recView s f).bytes a 128)
    layoutNeed s f off j.wrec0 ++ layoutNeed s f off j.wrec1 else [])

/-- A parameter record and, once it is known, its job record. -/
def paramNeed (s : State) (f : Fetched) (off a : Nat) (work : Bool) : List Need :=
  if a % 64 != 0 then []
  else (off, a, 128, false) :: (if recKnown s f (off, a, 128, false) then
    jobNeed s f off (parseParam ((recView s f).bytes a 128)).job work else [])

/-- A stationary operand: a layout record, or the header of a tile table. -/
def stationaryNeed (s : State) (f : Fetched) (off a : Nat) (sform : Bool) : List Need :=
  if sform then (if a % 64 != 0 then [] else [(off, a, 64, false)]) else layoutNeed s f off a

/-- The records a command names, and those that the ones at hand lead to. -/
def recordNeeds (s : State) (f : Fetched) (d : List Byte) : List Need :=
  let lay := fun off => layoutNeed s f off (dNum d off 8)
  let prod :=
    lay 0x20 ++ (if pStationary d then stationaryNeed s f 0x28 (pW d) (pSform d) else []) ++ (if pOuter d then lay 0x30 else []) ++
      (if pDsrc d = 0 then [] else lay 0x38) ++
      (if pStores d then (if dAdvUse d then (List.range 10).flatMap (fun i => layoutNeed s f 0x40 (dNum d 0x40 8 + 64 * i)) else lay 0x40) else []) ++
      (if pAdapt d then lay 0x48 else [])
  let plist := if bitOf (dNum d 0x3B 1) 3 then
      (List.range (dNum d 0x38 2)).flatMap (fun i => paramNeed s f 0x30 (dNum d 0x30 8 + 128 * i) false) else []
  match dOp d with
  | 0x01 => stationaryNeed s f 0x20 (dNum d 0x20 8) (pSform d)
  | 0x02 => prod
  | 0x03 => prod
  | 0x04 => prod
  | 0x05 => prod
  | 0x11 => lay 0x20
  | 0x18 => lay 0x20
  | 0x19 => lay 0x20
  | 0x20 => jobNeed s f 0x20 (dNum d 0x20 8) (rsMode d == 1)
  | 0x21 => jobNeed s f 0x20 (dNum d 0x20 8) (rsMode d == 1)
  | 0x22 => paramNeed s f 0x20 (dNum d 0x20 8) true ++
      (if apOpt d = 4 || dNum d 0x28 8 % 64 != 0 then [] else [(0x28, dNum d 0x28 8, 64, false)])
  | 0x28 => plist
  | 0x29 => plist
  | _ => []

/-- The records still to fetch: a command refused by its descriptor or without rows reads none, and a failed fetch is not retried (R318). -/
def missingRecs (s : State) (cls : Nat) (f : Fetched) : List Need :=
  match f.desc with
  | none => []
  | some d =>
    if !(opcodes.contains (dOp d)) || (descriptorFail cls d).isSome || zeroRows d then []
    else ((recordNeeds s f d).filter (fun n => !(recKnown s f n) && !(f.recFail.contains n.1))).foldl
      (fun l n => if l.any (fun m => m.2.1 == n.2.1) then l else l ++ [n]) []

/-! ### Step 6: group, epoch, ledger and array-map state -/

/-- The state of a group a command writes into (R152). -/
def writeGroupFail (x : Group) (st : Nat) : Nat :=
  match x.state with
  | .free => stNoGroup
  | .open => stOK
  | .torn => if x.torn = st then stOK else stGroupTorn
  | .broken => stGroupBroken

/-- The state of a group a SEND, a flush or an APPLY reads (R152, R278). -/
def readGroupFail (x : Group) : Nat :=
  match x.state with
  | .free => stNoGroup
  | .open => stOK
  | .torn => stGroupTorn
  | .broken => stGroupBroken

/-- The status `a` unless it is OK, then `b`. -/
def orStatus (a b : Nat) : Nat := if a = stOK then b else a

/-- A status when the condition holds. -/
def statusIf (b : Bool) (st : Nat) : Nat := if b then st else stOK

/-- Whether an output of `rows` × `cols` fits the group (R439). -/
def fitStatus (x : Group) (rows cols : Nat) : Nat := statusIf (x.rows < rows || x.cols < cols) stBadShape

/-- The group checks of a product command. -/
def productGroupFail (s : State) (d : List Byte) : Nat :=
  let g := groupOf s (pGroup d)
  let own := if pOuter d then orStatus (writeGroupFail g (dStamp d)) (fitStatus g (pNExt d) (pKExt d))
    else if pToGroup d then orStatus (writeGroupFail g (dStamp d)) (fitStatus g (pM d) (pNExt d)) else stOK
  let a := groupOf s (pAgroup d)
  orStatus own (if pAdapt d then orStatus (writeGroupFail a (dStamp d)) (fitStatus a (pRank d) (pKExt d)) else stOK)

/-- Whether the command uses the advisor's choice (R81, R302). -/
def usesAdvisor (d : List Byte) : Bool := dAdvUse d && ((isProduct d && pStores d) || (dOp d == 0x07 && gclearOpen? d))

/-- The advisor's and the epoch's verdict on a command's STEP (R81, R286). -/
def stepFail (s : State) (d : List Byte) : Nat :=
  if usesAdvisor d && dStep d ≤ s.epoch.step then stAdvStep
  else statusIf (isStaging d && dStep d ≤ s.epoch.step) stStepCommitted

/-- Whether the partner of a SNAP is colocated (R333). -/
def colocated (s : State) (d : List Byte) : Bool :=
  dNum d 0x3A 1 == rd s glbFeedDomain || dNum d 0x20 8 / 2 ^ 48 == rd s glbStrapsChipNum

/-- The units of a BIST: an array bit, a bank or control bit tested by MEMORY (R412, R413). -/
def bistUnits (d : List Byte) : Nat := dNum d 0x28 8
def bistFail (s : State) (d : List Byte) : Nat :=
  let u := bistUnits d
  let mem := dNum d 0x30 1 ≠ 1 && bitsOf u 30 33 != 0
  orStatus (statusIf (mem && (!(s.groups.all (fun p => p.2.state == .free)) || !s.preloads.isEmpty || !s.diverts.isEmpty)) stBadSeq)
    (statusIf (bitsOf u 0 24 != 0 && !(arraysUsable s)) stNoArrays)

/-- Whether a job's shape differs from the group's (R250). -/
def jobShape (x : Group) (j : Job) : Nat := statusIf (x.rows != j.rows || x.cols != j.cols) stBadShape

/-- Step 6. -/
def stateFail (s : State) (d : List Byte) : Nat :=
  let job := parseJob (s.bytes (dNum d 0x20 8) 128)
  match dOp d with
  | 0x02 => orStatus (productGroupFail s d) (orStatus (stepFail s d) (statusIf (!(arraysUsable s)) stNoArrays))
  | 0x03 => orStatus (productGroupFail s d) (orStatus (stepFail s d) (statusIf (!(arraysUsable s)) stNoArrays))
  | 0x04 => orStatus (productGroupFail s d) (statusIf (!(arraysUsable s)) stNoArrays)
  | 0x05 => orStatus (productGroupFail s d) (orStatus (stepFail s d) (statusIf (!(arraysUsable s)) stNoArrays))
  | 0x06 =>
    let x := groupOf s (foldGroup d)
    orStatus (writeGroupFail x (dStamp d))
      (statusIf (groupTR x ≤ dNum d 0x38 2 || groupTC x ≤ dNum d 0x3A 2) stBadShape)
  | 0x07 =>
    let g := gclearGroup d
    let x := groupOf s g
    if gclearOpen? d then orStatus (roomStatus s g { openedGroup (openHome s d) d x with state := .open }) (stepFail s d)
    else statusIf (x.state == .free) stNoGroup
  | 0x08 =>
    let x := groupOf s (gsGroup d)
    if gsPlane d then stOK else if gsHome d then readGroupFail x else statusIf (x.state == .free) stNoGroup
  | 0x19 =>
    let x := groupOf s (bitsOf (dNum d 0x4B 1) 0 6)
    if saTdest d then
      orStatus (writeGroupFail x (dStamp d)) (statusIf (x.rows != dNum d 0x44 4 || x.cols != dNum d 0x48 2) stBadShape)
    else stOK
  | 0x20 =>
    let x := groupOf s (rsGroup d)
    let grp := if rsMode d == 1 || (rsMode d == 0 && rsEmpty d) then stOK
      else orStatus (readGroupFail x) (orStatus (jobShape x job) (statusIf (rsMode d == 0 && x.reduced) stAlreadyReduced))
    orStatus grp (orStatus (stepFail s d) (statusIf (rd s glbStrapsFportPresent == 0) stFportError))
  | 0x21 =>
    let x := groupOf s (rsGroup d)
    let grp := if rsMode d == 1 then stOK else orStatus (writeGroupFail x (dStamp d)) (jobShape x job)
    orStatus grp (orStatus (stepFail s d) (statusIf (rd s glbStrapsFportPresent == 0) stFportError))
  | 0x22 =>
    let x := groupOf s (apGroup d)
    let j := parseJob (s.bytes (parseParam (s.bytes (dNum d 0x20 8) 128)).job 128)
    orStatus (if apOpt d == 4 then stOK
      else orStatus (readGroupFail x) (orStatus (jobShape x j) (statusIf (!x.reduced) stNotReduced))) (stepFail s d)
  | 0x28 =>
    orStatus (statusIf (colocated s d && !(bitOf (dNum d 0x3B 1) 0)) stColocated)
      (statusIf (rd s glbStrapsFportPresent == 0) stFportError)
  | 0x38 => bistFail s d
  | _ => stOK

/-- Every check of R300 after the opcode, for a command of a queue of class `cls`: status and RESULT of the first failure. -/
def commandFail (s : State) (cls : Nat) (recFail : List Nat) (d : List Byte) : Option Fail :=
  firstOf [descriptorFail cls d, recordsFail s recFail d,
    if zeroRows d || stateFail s d = stOK then none else some (stateFail s d, 0)]

end Sys2Proof.Machine
end

