-- ==== Sys2Proof/Machine/Regs.lean ====
section
/-! DEFINITION. Stored registers as words: reading the fields a register holds, writing them each on its own (R13, R14, R424), and the
determining fields a command latches (R431). -/

namespace Sys2Proof.Machine

/-- The stored fields of the register at `off` of a page as one word. -/
def storedWord (s : State) (page off : Nat) : Nat :=
  (regFields page off).foldl (fun a f => a + (rd s f) <<< f.lo) 0

/-- Write one field of a register write: a reserved encoding leaves it and sets BAD_VALUE (R14); only RW fields are set (R13). EVT_EN bits
outside EVT_IMPL are reserved (R426). -/
def writeField (v : Nat) (s : State) (f : Field) : State :=
  let x := bitsOf v f.lo f.width
  match f.acc with
  | .rw =>
    if !(fieldLegal f x) then setEvt s (evBadValue f.page)
    else if f.off = 0x028 then wr s f (x &&& evtImpl f.page)
    else wr s f x
  | .w1c => wr s f (rd s f &&& ((2 ^ f.width - 1) ^^^ x))
  | _ => s

/-- A register write: each field on its own (R424). -/
def writeFields (s : State) (page off v : Nat) : State := (regFields page off).foldl (writeField v) s

/-- The determining fields in force (R431). -/
def latchNow (s : State) : Latched :=
  { policy := rd s fmtFpCtlPolicy, innerTrap := rd s fmtFpCtlInnerTrap == 1, seed := rd s fmtSrSeedSeed
    idxPolicy := rd s scaIdxCtlPolicy, predExp := rd s sivSieveCtlPredExp, tolExp := rd s sivSieveCtlTolExp
    density := rd s sivHoffCtlHandoffDensity, keepLog2 := rd s rsuTopkCtlKeepLog2
    staleBreak := rd s scrFoldCtlStaleBreak == 1 }

/-- Whether the register port answers ASLEEP: in KEEP, for pages other than GLB, PWR and RAS (R24, R383). -/
def regAsleep (s : State) (page : Nat) : Bool := s.power.state == .keep && !(pageInKeep page)

/-- A register access that reaches `page`: its effect with an OKAY response; ASLEEP or UNMAPPED and no effect; without power or under a reset
the port does not answer (R24, R382, R383). -/
def portWrite (page : Nat) (f : State → State) (s : State) : Host.Outcome State Fault Refusal :=
  if !(awake s) then .next s
  else if !(pageExists page) then .next (settle s { s with regData := 0, regErr := 1 })
  else if regAsleep s page then .next (settle s { s with regData := 0, regErr := 2 })
  else .next (settle s (f { s with regData := 0, regErr := 0 }))

end Sys2Proof.Machine
end

