-- ==== Sys2Proof/Machine/Snap.lean ====
section
/-! DEFINITION. Snapshots and recovery (13 R326 to R342, 16 R394, R395): SNAP, RESTORE, arming and the risk level. -/

namespace Sys2Proof.Machine

/-! ### Descriptor fields (R305) -/

def snAddr (d : List Byte) : Nat := dNum d 0x20 8
def snGmask (d : List Byte) : Nat := dNum d 0x28 8
def snPlist (d : List Byte) : Nat := dNum d 0x30 8
def snPcount (d : List Byte) : Nat := dNum d 0x38 2
def snPfeed (d : List Byte) : Nat := dNum d 0x3A 1
def snOverride (d : List Byte) : Bool := bitOf (dNum d 0x3B 1) 0
def snLedger (d : List Byte) : Bool := bitOf (dNum d 0x3B 1) 1
def snPlanes (d : List Byte) : Bool := bitOf (dNum d 0x3B 1) 2
def snUndercoat (d : List Byte) : Bool := bitOf (dNum d 0x3B 1) 3
def snLimit (d : List Byte) : Nat := dNum d 0x40 8
def rsDataStep (d : List Byte) : Nat := dNum d 0x3C 4

/-- The parameter records of PLIST, and their job records: 128 bytes each, one after the other (DEDUCED, log 40). -/
def plistParam (s : State) (c : Cmd) (i : Nat) : Param :=
  parseParam (((recOf s c (snPlist c.desc) (128 * snPcount c.desc)).drop (128 * i)).take 128)
def plistJob (s : State) (c : Cmd) (i : Nat) : Job := parseJob (recOf s c (plistParam s c i).job 128)

/-! ### Register words of CONFIG (R326) -/

/-- RSU.GRP_RED: bit g, group g holds a reduced shard (R265). -/
def grpRed (s : State) : Nat := s.groups.foldl (fun a p => if p.2.reduced then a + 2 ^ p.1 else a) 0

/-- UPD.EPOCH, FMT.STAGED and UPD.STAGE_CNT (R292, R77). -/
def epochWord (e : Epoch) : Nat := placed e.parity 0 1 + placed e.attempt 8 8 + placed e.step 32 32
def stagedWord (s : State) : Nat := placed (nextStep s) 0 32 + placed s.epoch.attempt 32 8
def estateCode : EState → Nat
  | .stable => 0 | .staging => 1 | .committing => 2 | .abandoning => 3
def stageCntWord (e : Epoch) : Nat :=
  placed e.applied 0 16 + placed e.params 16 16 + placed e.poisoned 32 16 + placed (estateCode e.state) 48 2

/-- The registers of words 0 to 7 (R431). -/
def configRegs : List (Nat × Nat) :=
  [(0x07, 0x100), (0x07, 0x108), (0x07, 0x110), (0x0B, 0x100), (0x0A, 0x100), (0x0A, 0x108), (0x0C, 0x100), (0x09, 0x100)]

/-- The 16 words. -/
def configWords (s : State) : List Nat :=
  configRegs.map (fun p => storedWord s p.1 p.2) ++
    [grpRed s, epochWord s.epoch, stagedWord s, stageCntWord s.epoch, 0, 0, 0, 0]

/-! ### The image (R326, R327) -/

/-- A section: its header and its items' bytes. -/
def sectionOf (kind count : Nat) (body : List Byte) : List Byte :=
  natLE kind 4 ++ natLE count 4 ++ natLE (16 + body.length) 8 ++ body

def words64 (l : List Nat) : List Byte := l.flatMap (fun w => natLE w 8)

/-- The CONFIG section. -/
def configSection (s : State) : List Byte :=
  sectionOf 1 1 (words64 (configWords s) ++
    (List.range 256).flatMap (fun l => words64 ((List.range 64).map (advWord s l 0)) ++ words64 ((List.range 64).map (advWord s l 1))) ++
    (List.range 256).flatMap (fun i => words64 ((List.range 4).map (statWord (tget statZero s.statsCom i)))))

/-- PRESENT of a PARAMS entry (DEDUCED, log 40): an array is present when both its copies are named, residuals when RES_BASE is not 0. -/
def presentBits (p : Param) (j : Job) : Nat :=
  flagIf (p.m.1 != 0 && p.m.2 != 0) 1 + flagIf (p.v.1 != 0 && p.v.2 != 0) 2 + flagIf (j.res != 0) 4

def shardCount (j : Job) : Nat := shardFirst j (j.mine + 1) - shardFirst j j.mine

/-- The arrays of an entry in image order, as (address, bytes), for the live parity `p`. -/
def paramArrays (q : Param) (j : Job) (p : Nat) : List (Nat × Nat) :=
  let n := shardCount j * 262144
  let pres := presentBits q j
  let two := fun (a : Nat × Nat) => [(copyOf a p, n), (copyOf a (1 - p), n)]
  two q.w ++ (if bitOf pres 0 then two q.m else []) ++ (if bitOf pres 1 then two q.v else []) ++
    (if bitOf pres 2 then [(residualAddr j p 0 0, j.tiles * 524288), (residualAddr j (1 - p) 0 0, j.tiles * 524288)] else [])

/-- The header of a PARAMS entry. -/
def paramHeader (q : Param) (j : Job) : List Byte :=
  padTo 64 (natLE q.tid 4 ++ natLE j.id 2 ++ natLE j.shards 2 ++ natLE j.mine 2 ++ natLE 0 2 ++ natLE j.tiles 4 ++
    natLE (shardCount j) 4 ++ natLE (presentBits q j) 1)

/-- The PARAMS section at parity `par` (R326). -/
def paramsSection (s : State) (c : Cmd) (par : Nat) : List Byte :=
  if snUndercoat c.desc then
    sectionOf 2 (snPcount c.desc) ((List.range (snPcount c.desc)).flatMap (fun i =>
      let q := plistParam s c i
      let j := plistJob s c i
      paramHeader q j ++ (paramArrays q j par).flatMap (fun a => s.bytes a.1 a.2)))
  else sectionOf 2 0 []

def ledgerSection (s : State) (d : List Byte) : List Byte :=
  if snLedger d then sectionOf 3 4096 (ledgerDumpBytes s 0 4096) else sectionOf 3 0 []

/-- The groups of the mask that are not FREE, ascending. -/
def imageGroups (s : State) (mask : Nat) : List Nat :=
  (List.range 64).filter (fun g => bitOf mask g && (groupOf s g).state != .free)

def groupsSection (s : State) (d : List Byte) : List Byte :=
  let gs := imageGroups s (snGmask d)
  sectionOf 4 gs.length (gs.flatMap (groupImage s))

/-- A binding record (R326). -/
def bindingRecord (kind q g stamp tile addr : Nat) : List Byte :=
  natLE kind 1 ++ natLE q 1 ++ natLE g 1 ++ natLE 0 1 ++ natLE stamp 4 ++ natLE tile 4 ++ natLE 0 4 ++ natLE addr 8 ++ natLE 0 8

/-- The bindings in ascending (queue, stamp); a held preload's record keeps no count and no resume point (log 40). -/
def bindings (s : State) : List (Nat × List Byte) :=
  sortBy (·.1)
    (s.preloads.map (fun p => (p.q * 2 ^ 32 + p.stamp, bindingRecord 1 p.q p.group p.stamp p.tile 0 ++
      planeRecord p.rows 0 p.stamp p.tile 0 false (fun k => (tfind p.entries k).getD 0))) ++
      s.diverts.map (fun x => (x.q * 2 ^ 32 + x.stamp, bindingRecord 2 x.q x.group x.stamp x.tile x.addr)))

def planesSection (s : State) (d : List Byte) : List Byte :=
  if snPlanes d then sectionOf 5 (bindings s).length ((bindings s).flatMap (·.2)) else sectionOf 5 0 []

/-- The ranges a SNAP reads for PARAMS, at the parity captured with the epoch (R329). -/
def paramReads (s : State) (c : Cmd) : List (Nat × Nat) :=
  if snUndercoat c.desc then
    (List.range (snPcount c.desc)).flatMap (fun i => paramArrays (plistParam s c i) (plistJob s c i) s.epoch.parity)
  else []

/-- The bytes of the PARAMS section (R326). -/
def paramsLen (s : State) (c : Cmd) : Nat :=
  16 + (if snUndercoat c.desc then 64 * snPcount c.desc + ((paramReads s c).map (·.2)).sum else 0)

/-- The bound of R331: every tile counted as present. -/
def imageBound (s : State) (c : Cmd) : Nat :=
  128 + 270480 + paramsLen s c + (ledgerSection s c.desc).length +
    (16 + ((imageGroups s (snGmask c.desc)).map (fun g => imageLen (groupTiles (groupOf s g)))).sum) + (planesSection s c.desc).length

/-- Whether the engine is quiet at the capture (R330); the SNAP itself does not count (DEDUCED, log 40). -/
def quiescent (s : State) (key : Nat) : Bool :=
  s.epoch.state == .stable && s.cmds.all (fun e => e.key == key || firedKey ≤ e.key || classOf s e.q == 0 || !(startedCmd e))

/-! What a SNAP keeps from its captures for the header, in its `aux`. -/

def auxTime : Nat := 0
def auxQuiet : Nat := 1
def auxStep : Nat := 2
def auxParity : Nat := 3
def auxAttempt : Nat := 4
def auxPresent : Nat := 5
def auxGroups : Nat := 6
def auxOverride : Nat := 7

/-- Header bytes 0x00 to 0x3F and SDIGEST (R327); TIME_END and HDIGEST follow when it is released. -/
def headerFront (s : State) (c : Cmd) (body : List Byte) : List Byte :=
  let d := c.desc
  let x := tget 0 c.aux
  let fl := flagIf (c.key = firedKey) 1 + flagIf (x auxQuiet = 1) 2 + flagIf (x auxOverride = 1) 4 + flagIf (snLedger d) 8 +
    flagIf (snPlanes d) 16 + flagIf (snUndercoat d) 32
  natLE 0x534E5046 4 ++ natLE 1 2 ++ natLE (rd s glbStrapsChipNum) 2 ++ natLE (x auxStep) 4 ++ natLE (x auxParity) 1 ++
    natLE (x auxAttempt) 1 ++ natLE (rd s glbFeedDomain) 1 ++ natLE (snPfeed d) 1 ++ natLE fl 4 ++ natLE (snPcount d) 2 ++
    natLE 0 2 ++ natLE (snGmask d) 8 ++ natLE (x auxPresent) 8 ++ natLE (128 + body.length) 8 ++
    natLE c.time 8 ++ natLE (x auxTime) 8 ++ natLE 0 8 ++ natLE (crc64 body) 8

/-- The header with TIME_END and HDIGEST. -/
def headerDone (front : List Byte) (time : Nat) : List Byte :=
  let h := front.take 0x40 ++ natLE time 8 ++ (front.drop 0x48).take 8
  padTo 128 (h ++ natLE (crc64 h) 8)

/-! ### Snapshot packets (R394, R395) -/

/-- The packet of piece `i`. -/
def piecePacket (s : State) (dest step npiece i : Nat) (payload : List Byte) : List Byte :=
  let chip := dest / 2 ^ 48
  padTo 64 (natLE chip 2 ++ natLE (rd s glbStrapsChipNum) 2 ++ natLE 5 1 ++
    natLE (flagIf (i = 0) 2 + flagIf (chip = rd s glbStrapsChipNum) 8) 1 ++ natLE 0 2 ++ natLE step 4 ++ natLE i 4 ++
    natLE npiece 4 ++ natLE payload.length 2 ++ natLE 0 2 ++ natLE (dest + 8192 * i) 8 ++ zeros 16 ++ natLE (now s) 8 ++ natLE 0 8) ++ payload

/-- The port a parked piece 0 waits at: none of the four. -/
def parkedPort : Nat := 4

/-- Queue pieces 1 and on, and park piece 0 (R395). NPIECE, which every piece carries, is known once the last section is captured; the pieces
wait for it (DESIGN CHOICE, log 9). -/
def queuePieces (s : State) (c : Cmd) (image : List Byte) : State :=
  let ps := chunksOf 8192 image
  let dest := snAddr c.desc
  let mk := fun (i : Nat) (b : List Byte) =>
    (⟨if i = 0 then parkedPort else presentPort s (i % 4), 0, false, true, 0, c.key, i, piecePacket s dest (tget 0 c.aux auxStep) ps.length i b⟩ : TxPacket)
  let pk := ps.mapIdx mk
  { s with txq := s.txq ++ pk.drop 1 ++ pk.take 1, txState := s.txState ++ (pk.drop 1).map (fun t => ⟨c.key, t.num, 1, false⟩) }

/-- Release the header: piece 0 with TIME_END and HDIGEST, on its port (R332, R395). -/
def releaseHeader (s : State) (c : Cmd) : State :=
  { s with
    txq := s.txq.map (fun t =>
      if t.key == c.key && t.num == 0 then
        let b := t.bytes.drop 64
        let p := headerDone (b.take 128) (now s) ++ b.drop 128
        { t with port := presentPort s 0, bytes := t.bytes.take 0x30 ++ natLE (now s) 8 ++ (t.bytes.drop 0x38).take 8 ++ p }
      else t)
    txState := s.txState ++ [⟨c.key, 0, 1, false⟩] }

/-! ### SNAP -/

/-- What an OVERRIDE does (R333): a record of KIND 5 and the COLOCATED event. -/
def noteOverride (s : State) (d : List Byte) (c : Option Cmd) : State :=
  let q := logCmd c
  setEvt (logPut s ⟨5, 0, 0, 0xFF, 0, snAddr d, snPfeed d, q.1, 0xFF, q.2⟩) evColocated

/-- Whether another SNAP is at work (R332). -/
def snapBusy (s : State) (key : Nat) : Bool := s.cmds.any (fun e => e.key != key && dOp e.desc == 0x28 && e.phase == .begun)

/-- The first capture: CONFIG and the epoch, with the hold, and the reads of PARAMS (R329, R331). -/
def snapEpoch (s : State) (c : Cmd) : State :=
  if snLimit c.desc < imageBound s c then endCmd s c.key stNoSpace 0 0
  else
    let e := s.epoch
    let x := c.aux ++ [(auxTime, now s), (auxQuiet, if quiescent s c.key then 1 else 0), (auxStep, e.step), (auxParity, e.parity),
      (auxAttempt, e.attempt)]
    askReads (modCmd s c.key (fun c => { c with
      phase := .begun, asked := 1, image := configSection s, aux := x.foldl (fun l p => tput 0 l p.1 p.2) [] })) c.key 7 0 (paramReads s c)

/-- PARAMS has been read (R329). -/
def snapParams (s : State) (c : Cmd) : State :=
  modCmd s c.key (fun c' => { c' with asked := 2, image := c.image ++ paramsSection s c (tget 0 c.aux auxParity) })

/-- LEDGER in one piece (R329). -/
def snapLedger (s : State) (c : Cmd) : State :=
  let img := c.image ++ ledgerSection s c.desc
  modCmd s c.key (fun c => { c with asked := 3, image := img, aux := tput 0 c.aux auxGroups img.length })

/-- The next group of the mask that has an image, from `c.window` on. -/
def nextGroup (s : State) (c : Cmd) : Option Nat := (imageGroups s (snGmask c.desc)).find? (fun g => c.window ≤ g)

/-- One group under the locks of its tiles (R160, R329). -/
def snapGroup (s : State) (c : Cmd) (g : Nat) : State :=
  let m := meetGroup s g (some c)
  if m.2 then endCmd m.1 c.key stFault 0 0
  else modCmd (touchGroup m.1 g) c.key (fun c' => { c' with
    window := g + 1, image := c.image ++ groupImage m.1 g, aux := tput 0 c.aux auxPresent (tget 0 c.aux auxPresent + 2 ^ g) })

/-- The bindings at the end of the groups, and the whole image on its way (R328, R329). -/
def snapPlanes (s : State) (c : Cmd) : State :=
  let o := tget 0 c.aux auxGroups
  let body := c.image.take o ++ sectionOf 4 (popcount (tget 0 c.aux auxPresent) 64) (c.image.drop o) ++ planesSection s c.desc
  let s1 := queuePieces s c (padTo 128 (headerFront s c body) ++ body)
  modCmd s1 c.key (fun c => { c with asked := 4, image := [], outRec := 128 + body.length })

/-- The next capture of a SNAP (R328). -/
def snapStep (s : State) (c : Cmd) : State :=
  match c.asked with
  | 0 => snapEpoch s c
  | 1 => snapParams s c
  | 2 => snapLedger s c
  | _ => match nextGroup s c with
    | some g => snapGroup s c g
    | none => snapPlanes s c

/-- Whether the next capture can be made: the first waits for a running SNAP (R332), PARAMS for its bytes, a group for the writers of its tiles
(R160). -/
def snapReady (s : State) (c : Cmd) : Bool :=
  if c.asked = 0 then runnable s c && !(snapBusy s c.key)
  else unitsRun s && c.phase == .begun && c.asked < 4 && !(readsWait s c.key) &&
    !(c.asked == 3 && (nextGroup s c).any (fun g => groupBusy s g))

/-- SNAP, of a queue or fired: its next capture (R328, R332). -/
def execSnap (r : DoneRef) (s : State) : Host.Outcome State Fault Refusal :=
  match findCmd s (doneKey r) with
  | some c => if isOp 0x28 c && snapReady s c then .next (settle s (actUnit s c snapStep)) else .next s
  | none => .next s

/-- A SNAP whose packets all have their status: the header is released, or the SNAP ends (R332). -/
def snapFinish (s : State) (c : Cmd) : State :=
  let clear := fun (s : State) => { s with
    txq := s.txq.filter (fun t => t.key != c.key), txState := s.txState.filter (fun t => t.key != c.key) }
  if txFailed s c.key then endCmd (clear s) c.key stFportError 0 (c.outRec % 2 ^ 32)
  else if s.txq.any (fun t => t.key == c.key && t.port == parkedPort) then releaseHeader s c
  else endCmd (clear s) c.key stOK 0 (c.outRec % 2 ^ 32)

/-! ### RESTORE: the image as read (R336) -/

/-- The image at SRC: `n` bytes from offset `o`. -/
def imgAt (s : State) (d : List Byte) (o n : Nat) : List Byte := s.bytes (snAddr d + o) n

/-- The five section headers: (offset, KIND, COUNT, LEN). -/
def imgSections (s : State) (d : List Byte) : List (Nat × Nat × Nat × Nat) :=
  ((List.range 5).foldl (fun (a : List (Nat × Nat × Nat × Nat) × Nat) _ =>
    let h := imgAt s d a.2 16
    let n := fieldAt h 8 8
    (a.1 ++ [(a.2, fieldAt h 0 4, fieldAt h 4 4, n)], a.2 + n)) ([], 128)).1

def imgSec (s : State) (d : List Byte) (k : Nat) : Nat × Nat × Nat × Nat := ((imgSections s d)[k]?).getD (0, 0, 0, 0)

/-- The entries of the PARAMS section as (offset, header). -/
def imgEntries (s : State) (d : List Byte) : List (Nat × List Byte) :=
  let x := imgSec s d 1
  ((List.range x.2.2.1).foldl (fun (a : List (Nat × List Byte) × Nat) _ =>
    let h := imgAt s d a.2 64
    let n := fieldAt h 0x10 4 * 262144
    let b := fieldAt h 0x14 1
    let len := 64 + 2 * n + (if bitOf b 0 then 2 * n else 0) + (if bitOf b 1 then 2 * n else 0) +
      (if bitOf b 2 then 2 * (fieldAt h 0x0C 4 * 524288) else 0)
    (a.1 ++ [(a.2, h)], a.2 + len)) ([], x.1 + 16)).1

/-- Bytes an entry takes in the section. -/
def imgEntryLen (h : List Byte) : Nat :=
  let n := fieldAt h 0x10 4 * 262144
  let b := fieldAt h 0x14 1
  64 + 2 * n + (if bitOf b 0 then 2 * n else 0) + (if bitOf b 1 then 2 * n else 0) + (if bitOf b 2 then 2 * (fieldAt h 0x0C 4 * 524288) else 0)

/-- The group images of the GROUPS section: (offset, group). -/
def imgGroups (s : State) (d : List Byte) : List (Nat × Nat) :=
  let x := imgSec s d 3
  ((List.range x.2.2.1).foldl (fun (a : List (Nat × Nat) × Nat) _ =>
    let h := imgAt s d a.2 128
    (a.1 ++ [(a.2, fieldAt h 6 1)], a.2 + imageLen (fieldAt h 0x38 4))) ([], x.1 + 16)).1

/-- The bindings of the PLANES section: (offset, record). -/
def imgBindings (s : State) (d : List Byte) : List (Nat × List Byte) :=
  let x := imgSec s d 4
  ((List.range x.2.2.1).foldl (fun (a : List (Nat × List Byte) × Nat) _ =>
    let h := imgAt s d a.2 32
    let rows := fieldAt (imgAt s d (a.2 + 32) 64) 8 2
    (a.1 ++ [(a.2, h)], a.2 + 32 + (if fieldAt h 0 1 = 1 then 64 + rows * 256 * 6 + 8 else 0))) ([], x.1 + 16)).1

/-- The end of the last of a list of parts of a section of offset `o`. -/
def partsEnd (o : Nat) (l : List (Nat × Nat)) : Nat := (l.getLast?.map (fun p => p.1 + p.2)).getD (o + 16)

/-- A group image inside a snapshot passes R169. -/
def imgGroupOk (s : State) (d : List Byte) (p : Nat × Nat) : Bool :=
  let h := imgAt s d p.1 128
  let n := fieldAt h 0x38 4
  let len := imageLen n
  imageHeaderOk h p.2 && imageTilesOk (imageGroup h 0) ((List.range n).map (fun i => imgAt s d (p.1 + 128 + i * 524320) 32)) &&
    leNat (imgAt s d (p.1 + len - 8) 8) == crc64 (imgAt s d p.1 (len - 8))

/-- A binding record inside a snapshot, and its plane record in AF48, pass R169. -/
def imgBindingOk (s : State) (d : List Byte) (p : Nat × List Byte) : Bool :=
  let h := p.2
  let k := fieldAt h 0 1
  let pr := imgAt s d (p.1 + 32) 64
  let len := 64 + fieldAt pr 8 2 * 256 * 6
  (k == 1 || k == 2) && fieldAt h 3 1 == 0 && fieldAt h 0xC 4 == 0 && fieldAt h 0x18 8 == 0 && fieldAt h 1 1 < 16 && fieldAt h 2 1 < 64 &&
    (if k = 1 then fieldAt h 0x10 8 == 0 && planeRecordOk 16384 pr && fieldAt pr 6 1 == 9 &&
        leNat (imgAt s d (p.1 + 32 + len) 8) == crc64 (imgAt s d (p.1 + 32) len) else true)

/-- FLAGS of the image. -/
def imgFlag (s : State) (d : List Byte) (i : Nat) : Bool := bitOf (fieldAt (imgAt s d 0 128) 0x10 4) i
def imgStep (s : State) (d : List Byte) : Nat := fieldAt (imgAt s d 0 128) 0x08 4

/-- The first row of R336. -/
def imageOk (s : State) (d : List Byte) : Bool :=
  let h := imgAt s d 0 128
  let len := fieldAt h 0x28 8
  let secs := imgSections s d
  let sec := fun k => imgSec s d k
  let only := fun (k : Nat) => (sec k).2.2 == (0, 16)
  let gm := fieldAt h 0x18 8
  let gp := fieldAt h 0x20 8
  let gs := imgGroups s d
  let es := imgEntries s d
  let bs := imgBindings s d
  fieldAt h 0 4 == 0x534E5046 && fieldAt h 4 2 == 1 && fieldAt h 0x50 8 == crc64 (h.take 0x50) && fieldAt h 0x0C 1 < 2 &&
    fieldAt h 0x10 4 < 64 && fieldAt h 0x16 2 == 0 && leNat ((h.drop 0x58).take 40) == 0 &&
    secs.map (fun x => x.2.1) == [1, 2, 3, 4, 5] && (sec 4).1 + (sec 4).2.2.2 == len && (sec 0).2.2 == (1, 270480) &&
    leNat (imgAt s d (128 + 16 + 96) 32) == 0 &&
    (if imgFlag s d 5 then (sec 1).2.2.1 == fieldAt h 0x14 2 && es.all (fun e => fieldAt e.2 0x0A 2 == 0 && fieldAt e.2 0x14 1 < 8 &&
        leNat ((e.2.drop 0x15).take 43) == 0) && partsEnd (sec 1).1 (es.map (fun e => (e.1, imgEntryLen e.2))) == (sec 2).1 else only 1) &&
    (if imgFlag s d 3 then (sec 2).2.2 == (4096, 131088) &&
        (List.range 4096).all (fun i => slotBytesOk (imgAt s d ((sec 2).1 + 16 + 32 * i) 32)) else only 2) &&
    (if gm = 0 then only 3 else gs.map (·.2) == (List.range 64).filter (bitOf gp) && gs.all (fun p => bitOf gm p.2 && imgGroupOk s d p) &&
        partsEnd (sec 3).1 (gs.map (fun p => (p.1, imageLen (fieldAt (imgAt s d p.1 128) 0x38 4)))) == (sec 4).1) &&
    (if imgFlag s d 4 then bs.all (imgBindingOk s d) && partsEnd (sec 4).1 (bs.map (fun p =>
        (p.1, 32 + (if fieldAt p.2 0 1 = 1 then 64 + fieldAt (imgAt s d (p.1 + 32) 64) 8 2 * 256 * 6 + 8 else 0)))) == len else only 4) &&
    fieldAt h 0x48 8 == crc64 (imgAt s d 128 (len - 128))

/-- Whether the image's entries are those of PLIST (R336). -/
def entriesMatch (s : State) (c : Cmd) : Bool :=
  let d := c.desc
  let es := imgEntries s d
  es.length == snPcount d && ((es.map (·.2)).mapIdx (fun i h =>
    let q := plistParam s c i
    let j := plistJob s c i
    fieldAt h 0 4 == q.tid && fieldAt h 6 2 == j.shards && fieldAt h 8 2 == j.mine && fieldAt h 0x0C 4 == j.tiles &&
      fieldAt h 0x14 1 == presentBits q j)).all id

/-- The groups of the image that the descriptor restores. -/
def restoredGroups (s : State) (d : List Byte) : List (Nat × Nat) := (imgGroups s d).filter (fun p => bitOf (snGmask d) p.2)

/-- The groups of GMASK released: FREE with their GEN moved on; a group that is to be replaced, not closed, keeps its preloads, and its replacement
moves its GEN on (R167, R337). -/
def freeGroups (s : State) (mask : Nat) (kept : List Nat) : State :=
  ((List.range 64).filter (fun g => bitOf mask g && (groupOf s g).state != .free)).foldl (fun s g =>
    let s1 := clearTiles s g
    setGroup (if kept.contains g then s1 else dropPreloads s1 g) g
      { groupFree with gen := if kept.contains g then (groupOf s g).gen else ((groupOf s g).gen + 1) % 256 }) s

/-- Whether the restored groups find room together (R336). -/
def restoreRoom (s : State) (d : List Byte) : Nat :=
  ((restoredGroups s d).foldl (fun (a : State × Nat) p =>
    let x := imageGroup (imgAt s d p.1 128) 0
    (setGroup a.1 p.2 x, orStatus a.2 (roomStatus a.1 p.2 x))) (freeGroups s (snGmask d) [], stOK)).2

/-- What the checks of the PLIST records, as fetched, find (R336). -/
def plistStatus (s : State) (c : Cmd) : Nat :=
  let v := { s with rbuf := c.recs.flatMap (fun p => p.2.mapIdx (fun i b => (p.1 + i, b))) }
  let f := plistFail v c.desc
  ((f.1.or f.2).map (·.1)).getD stOK

/-- The checks of R336: the status of a refused RESTORE, or OK. -/
def restoreFail (s : State) (c : Cmd) : Nat :=
  let d := c.desc
  if snAddr d = 0 then statusIf (rsDataStep d == 0) stBadStep
  else
    let gm := fieldAt (imgAt s d 0 128) 0x18 8
    orStatus (statusIf (!(imageOk s d)) stBadImage) (orStatus (statusIf (rsDataStep d == 0) stBadStep)
      (orStatus (statusIf (rsDataStep d != imgStep s d + 1) stStepMismatch)
      (orStatus (statusIf ((snGmask d &&& gm) != snGmask d) stBadImage)
      (orStatus (statusIf ((snLedger d && !(imgFlag s d 3)) || (snPlanes d && !(imgFlag s d 4)) || (snUndercoat d && !(imgFlag s d 5))) stBadImage)
      (orStatus (if snUndercoat d then plistStatus s c else stOK)
      (orStatus (statusIf (snUndercoat d && !(entriesMatch s c)) stBadImage) (restoreRoom s d)))))))

/-! ### RESTORE: the writes (R337 to R339) -/

/-- Step 1: the ledger. -/
def restoreLedger (s : State) (d : List Byte) : State :=
  if snLedger d then
    foundRecords (ledgerLoadBytes s 0 4096 (fun i => imgAt s d ((imgSec s d 2).1 + 16 + 32 * i) 32)) (fun p => p.1 == 0)
  else s

/-- Step 2: the groups of GMASK. -/
def restoreGroups (s : State) (d : List Byte) : State :=
  let red := fieldAt (imgAt s d (128 + 16 + 64) 8) 0 8
  (restoredGroups s d).foldl (fun s p =>
    let s := (restoreGroup s p.2 (fun o n => imgAt s d (p.1 + o) n)).1
    setGroup s p.2 { groupOf s p.2 with reduced := bitOf red p.2 }) (freeGroups s (snGmask d) ((restoredGroups s d).map (·.2)))

/-- Step 3: the bindings take the place of those held; they are bound before every later command of their queue. -/
def restorePlanes (s : State) (d : List Byte) : State :=
  if snPlanes d then
    (imgBindings s d).foldl (fun s p =>
      let h := p.2
      let q := fieldAt h 1 1
      let owner := (rd s (queRetiredCount q) + 2 ^ 32 - 1) % 2 ^ 32
      if fieldAt h 0 1 = 1 then
        let rows := fieldAt (imgAt s d (p.1 + 32) 64) 8 2
        { s with preloads := s.preloads ++ [⟨q, fieldAt h 4 4, fieldAt h 2 1, fieldAt h 8 4, owner, rows,
            planeEntries 9 rows (fun o n => imgAt s d (p.1 + 96 + o) n)⟩] }
      else { s with diverts := s.diverts ++ [⟨q, fieldAt h 4 4, fieldAt h 2 1, fieldAt h 8 4, owner, fieldAt h 0x10 8⟩] })
      { s with preloads := [], diverts := [] }
  else s

/-- Step 4: the arrays of PARAMS, at the image's parity. -/
def restoreParams (s : State) (c : Cmd) : State :=
  let d := c.desc
  if snUndercoat d then
    let par := fieldAt (imgAt s d 0 128) 0x0C 1
    ((imgEntries s d).mapIdx (fun i e => (i, e.1))).foldl (fun s1 p =>
      ((paramArrays (plistParam s c p.1) (plistJob s c p.1) par).foldl (fun (a : State × Nat) x =>
        (a.1.store x.1 (imgAt s d a.2 x.2), a.2 + x.2)) (s1, p.2 + 64)).1) s
  else s

/-- A layer from the words of sets 0b00 and 0b01 of an image; its staged record is cleared. -/
def layerFrom (w : Nat → Nat) : AdvLayer :=
  let cw := fun i => w (64 + i)
  let half := fun (base n : Nat) => (List.range n).foldl (fun (l : List (Nat × Nat)) i =>
    tput 0 (tput 0 l (2 * i) (cw (base + i) % 2 ^ 32)) (2 * i + 1) (cw (base + i) / 2 ^ 32)) []
  let v := cw 1
  let live : AdvLive := ⟨bitsOf v 0 4, bitsOf v 4 4, bitsOf v 8 8, bitsOf v 16 1, bitsOf v 17 1, bitsOf v 20 8⟩
  { advLayerReset with
    dxMask := bitsOf (w 0) 0 10, homeMask := bitsOf (w 0) 16 2, live := live, staged := live
    comMask := (bitsOf (cw 0) 0 10, bitsOf (cw 0) 16 2)
    comCounts := ⟨half 2 33, half 35 17, cw 52 % 2 ^ 32, cw 52 / 2 ^ 32, cw 53 % 2 ^ 32, cw 53 / 2 ^ 32, cw 54 % 2 ^ 32, cw 54 / 2 ^ 32⟩ }

/-- The statistics entry of four words. -/
def statFrom (w : Nat → Nat) : StatEnt := ⟨w 0 % 2 ^ 32, w 0 / 2 ^ 32, w 1, w 2, w 3⟩

/-- Step 5: the determining fields, the advisor, the statistics. -/
def restoreConfig (s : State) (d : List Byte) : State :=
  let word := fun (o : Nat) => fieldAt (imgAt s d o 8) 0 8
  let base := 128 + 16
  let s1 := (configRegs.mapIdx (fun i p => (i, p))).foldl (fun s1 x => writeFields s1 x.2.1 x.2.2 (word (base + 8 * x.1))) s
  let s2 := { s1 with
    advisor := (List.range 256).foldl (fun l i => tput advLayerReset l i (layerFrom (fun w => word (base + 128 + 1024 * i + 8 * w)))) []
    statsCom := (List.range 256).foldl (fun l i => tput statZero l i (statFrom (fun w => word (base + 128 + 262144 + 32 * i + 8 * w)))) []
    statsSt := [] }
  foundRecords s2 (fun p => p.1 != 0)

/-- Step 6, and the end of a RESTORE that has written everything: the epoch, RESTORE_STAT, the EPOCH record (R337, R339). -/
def restoreEnd (s : State) (key step parity attempt : Nat) : State :=
  let e := s.epoch
  let s := { s with epoch := { e with
    parity := parity, step := step, attempt := attempt, state := .stable, applied := 0, params := 0, poisoned := 0, waiting := 0 } }
  let s := wr s glbRestoreStatPending 0
  endCmd (trace s 7 2 0 parity step attempt 0) key stOK 0 0

/-- What the end of a RESTORE needs of its image: STEP, PARITY, ATTEMPT + 1. -/
def restoreAux (s : State) (d : List Byte) : List (Nat × Nat) :=
  let h := imgAt s d 0 128
  [(0, fieldAt h 8 4), (1, fieldAt h 0x0C 1), (2, (fieldAt h 0x0D 1 + 1) % 256)]

/-- The last step of a RESTORE with an image: RESTORE_STAT.STEP too. -/
def restoreFinish (s : State) (c : Cmd) : State :=
  let st := tget 0 c.aux 0
  restoreEnd (wr s glbRestoreStatStep st) c.key st (tget 0 c.aux 1) (tget 0 c.aux 2)

/-- A RESTORE that fails after its checks (R339). -/
def restoreBroken (s : State) (c : Cmd) (status : Nat) : State :=
  let s := ((List.range 64).filter (bitOf (snGmask c.desc))).foldl breakGroup s
  endCmd (wr s glbRestoreStatPending 1) c.key status 0 0

/-- The effect of a RESTORE with an image. With memory to write it ends when the writes are acknowledged (R317, R339). -/
def restoreRun (s : State) (c : Cmd) : State :=
  let st := restoreFail s c
  if st ≠ stOK then endCmd s c.key st 0 0
  else
    let d := c.desc
    let x := restoreAux s d
    let s1 := restoreConfig (restoreParams (restorePlanes (restoreGroups (restoreLedger s d) d) d) c) d
    if s1.wbuf.isEmpty then restoreFinish s1 { c with aux := x }
    else modCmd s1 c.key (fun c => { c with phase := .begun, aux := x })

/-- The header has arrived: one that fails its check ends the RESTORE, else the rest of the image is read (R336). -/
def restoreHeader (s : State) (c : Cmd) : State :=
  let h := imgAt s c.desc 0 128
  if fieldAt h 0 4 ≠ 0x534E5046 ∨ fieldAt h 4 2 ≠ 1 ∨ fieldAt h 0x50 8 ≠ crc64 (h.take 0x50) then endCmd s c.key stBadImage 0 0
  else askReads (modCmd s c.key (fun c => { c with asked := 1 })) c.key 7 0 [(snAddr c.desc + 128, fieldAt h 0x28 8 - 128)]

/-- RESTORE (R335 to R337). -/
def execRestore (r : CmdRef) (s : State) : Host.Outcome State Fault Refusal :=
  runUnit s (refKey r) (fun c => isOp 0x29 c && snAddr c.desc != 0) (fun s c => if c.asked = 0 then restoreHeader s c else restoreRun s c)

/-- EPOCH_ONLY_RESTORE (R338): the staged records and counts are cleared. -/
def execEpochOnlyRestore (r : CmdRef) (s : State) : Host.Outcome State Fault Refusal :=
  runUnit s (refKey r) (fun c => isOp 0x29 c && snAddr c.desc == 0) (fun s c =>
    let st := restoreFail s c
    if st ≠ stOK then endCmd s c.key st 0 0
    else
      let s1 := clearStagedAdvisor { s with statsSt := [] }
      restoreEnd (foundRecords s1 (fun p => p.1 == 2)) c.key (rsDataStep c.desc - 1) 0 0)

/-! ### Arming (R333, R334, R342) -/

/-- A command that has started, before its unit has it. -/
def newCmd (s : State) (key : Nat) (d : List Byte) (bell : Nat) : Cmd :=
  { key := key, desc := d, lat := latchNow s, bell := bell, attempt := s.epoch.attempt
    gens := [], view := none, phase := .started, status := 0, flags := 0, result := 0, errs := [], items := [], screened := 0
    fetched := 0, marks := [], trapRow := none, adv := advCountsZero, sieve := [], guard := none, saved := false, packed := false
    refused := false, window := 0, pack := [], husked := [], asked := 0, time := now s, image := [], aux := [], outRec := 0, hoff := false, recs := [] }

/-- Ask for the descriptor to be armed; without clocks it is asked for at the wake (R334). -/
def askSnapDesc (s : State) : State :=
  if s.snap.state == .arming && unitsRun s then issue s true false (rd s glbSnapDescAddr) 128 .snapDesc else s

/-- ARM written to 1 (R334): only from IDLE. -/
def armNow (s : State) : State :=
  if s.snap.state == .idle then askSnapDesc { s with snap := { s.snap with state := .arming } } else s

/-- DISARM written to 1 (R342): ARMED to IDLE. -/
def disarmNow (s : State) : State :=
  if s.snap.state == .armed then wr { s with snap := snapReset } glbSnapArmOverridden 0 else s

/-- ARM. -/
def execArm (s : State) : Host.Outcome State Fault Refusal := portWrite 0x00 armNow s

/-- DISARM. -/
def execDisarm (s : State) : Host.Outcome State Fault Refusal := portWrite 0x00 disarmNow s

/-- Arming has failed: IDLE with the status in LAST (R334). -/
def armFailed (s : State) (status : Nat) : State := wr { s with snap := snapReset } glbSnapArmLast status

/-- The descriptor being armed, as one whose records are fetched. -/
def armFetched (s : State) : Fetched := ⟨0, some s.snap.desc, false, if s.snap.failed then [0x30] else [], 0, s.snap.recs⟩

/-- The held descriptor and its records have arrived: checked by R300 and R333, then ARMED, or IDLE with the status in LAST. An opcode other than
SNAP is BAD_OPCODE (DESIGN CHOICE, log 45). -/
def armDesc (s : State) : State :=
  let d := s.snap.desc
  let f := armFetched s
  match if dOp d != 0x28 then some (stBadOpcode, 0) else commandFail (recView s f) 0 f.recFail d with
  | some x => armFailed s x.1
  | none =>
    let s := { s with snap := { s.snap with state := .armed } }
    if colocated s d then wr (noteOverride s d none) glbSnapArmOverridden 1 else wr s glbSnapArmOverridden 0

/-- Whether a record of the descriptor being armed is awaited. -/
def armWaits (s : State) : Bool := (openReqs s).any (fun r => r.why == .snapRecord)

/-- Arming goes on: records still missing are read, else the descriptor is checked (R300, R334). -/
def armNext (s : State) : State :=
  if armWaits s then s
  else
    let l := if dOp s.snap.desc = 0x28 then missingRecs s 0 (armFetched s) else []
    if l.isEmpty then armDesc s else l.foldl (fun s n => askRuns s false (granulePieces n.2.1 n.2.2.1) .snapRecord) s

/-- The parameter records and job records a SNAP or RESTORE with UNDERCOAT names, as (address, bytes) (R326). -/
def plistReads (s : State) (d : List Byte) : List (Nat × Nat) :=
  if snUndercoat d then
    (snPlist d, 128 * snPcount d) :: (List.range (snPcount d)).map (fun i => ((parseParam (s.bytes (snPlist d + 128 * i) 128)).job, 128))
  else []

/-- The armed SNAP fires (R334). -/
def fireSnap (s : State) : State :=
  let v := recView s (armFetched s)
  let c := { newCmd s firedKey s.snap.desc (now s) with
    recs := (plistReads v s.snap.desc).foldl (fun l p => tins l p.1 (v.bytes p.1 p.2)) []
    aux := if rd s glbSnapArmOverridden = 1 then [(auxOverride, 1)] else [] }
  let s := { s with snap := { s.snap with state := .running }, cmds := s.cmds ++ [c] }
  let s := wr s glbSnapTimeTime (now s)
  let s := trace s 0 0x28 0xFF 0 0xFFFFFFFF (dStamp c.desc + dStep c.desc * 2 ^ 32) (dTag c.desc)
  setEvt s evRiskFired

/-- A write of GLB.RISK: crossing THRESHOLD from below fires the armed SNAP. -/
def riskWrite (v : Nat) (s : State) : State :=
  let new := bitsOf v 0 4
  let th := rd s glbSnapArmThreshold
  let crosses := rd s glbRiskLevel < th && th ≤ new
  let s1 := wr s glbRiskLevel new
  if crosses then (if s.snap.state == .armed then fireSnap s1 else setEvt s1 evRiskUnarmed) else s1

/-- RISK_LEVEL_WRITE (R334): crossing THRESHOLD from below fires the armed SNAP, or sets RISK_UNARMED with none armed (R429). -/
def execRiskLevelWrite (v : Word) (s : State) : Host.Outcome State Fault Refusal :=
  portWrite 0x00 (riskWrite v.toNat) s

end Sys2Proof.Machine
end

