-- ==== Sys2Proof/Machine/Power.lean ====
section
/-! DEFINITION. Power states, clocks, ramps and throttle (14 R343 to R360, 16 R399, R400), and the filler bridge (R105). -/

namespace Sys2Proof.Machine

/-! ### States -/

/-- The codes of PWR.STATE.STATE (R360). -/
def pstateCode : PState → Nat
  | .off => 0 | .keep => 1 | .idle => 2 | .rampUp => 3 | .active => 4 | .drain => 5 | .rampDown => 6

/-- The load-step budget in force (R353). -/
def budget (s : State) : Nat :=
  let l := rd s pwrBudgetLimit
  let h := rd s pwrBudgetHost
  if h = 0 then l else min l h

/-- The POWER trace record of a change (R435). -/
def powerTrace (s : State) (new : PState) : State :=
  trace s 6 (pstateCode new) s.power.thrEff (pstateCode s.power.state) 0 (budget s) 0

/-- Change the power state, with the STATE_CHG event (R429). -/
def enterState (s : State) (new : PState) : State :=
  if s.power.state == new then s else setEvt { s with power := { s.power with state := new } } evStateChg

/-- The change with its trace record. -/
def setPower (s : State) (new : PState) : State :=
  if s.power.state == new then s else enterState (powerTrace s new) new

def setClk (s : State) (c : ClkStage) : State := { s with power := { s.power with clk := c } }

def target (s : State) : Nat := rd s pwrStateCtlTarget

/-! ### Array work (R345, R346, R413) -/

/-- Whether the command works on arrays: a product with rows, or a BIST of an array. -/
def arrayCmd (d : List Byte) : Bool :=
  (isProduct d && !(zeroRows d)) || (dOp d == 0x38 && bitsOf (bistUnits d) 0 24 != 0)

/-- Whether a started command has array work left. -/
def arrayWork (c : Cmd) : Bool := arrayCmd c.desc && (c.phase == .started || c.phase == .begun)

/-- Whether array work is ready or started; a saved command is ready to resume. -/
def workReady (s : State) : Bool := s.cmds.any arrayWork

/-- Whether a saved command has left the arrays, its planes in the save area. -/
def savedAway (s : State) (c : Cmd) : Bool :=
  c.saved && offLanes s c && s.arrays.all (fun p => [p.2.planeA, p.2.planeB].all (fun x => x.key != c.key || x.state != .saving))

/-- Whether started work remains on the arrays: a saved command's while it drains (R346, R357). -/
def workRemains (s : State) : Bool := s.cmds.any (fun c => arrayWork c && !(savedAway s c))

/-- Whether array commands may start now (R343, R345, R347): not in a descent, and with TARGET = ACTIVE in IDLE. -/
def arraysStart (s : State) : Bool :=
  match s.power.state with
  | .rampUp => true
  | .active => true
  | .idle => target s == 2
  | .rampDown => !s.power.descent
  | _ => false

/-- R348: every queue DISABLED, nothing started but saved commands, no fired SNAP. -/
def keepOk (s : State) : Bool :=
  s.queues.all (fun p => p.2.state == .disabled) && s.cmds.all (·.saved)

/-! ### Lanes and levels (R350 to R353) -/

/-- The format class k of the work a lane holds (R353): that of its first unfinished item in arbitration order; FP4 in a BIST (R413). -/
def laneWork (s : State) (l : Lane) : Option Nat :=
  let on := fun (a : Nat) => (laneArrays l).contains a
  if s.cmds.any (fun c => dOp c.desc == 0x38 && s.bist.key == some c.key && (laneArrays l).any (bitOf (bistUnits c.desc))) &&
      !((laneArrays l).any (failedArray s)) then some 8
  else ((arbitration s).filter (fun c => arrayWork c && !c.saved && isProduct c.desc)).findSome? (fun c =>
    (c.items.find? (fun i => on i.array && i.st != .done && !(failedArray s i.array))).map (itemK s c))

/-- AMPS of a k (R353). -/
def ampsOf (s : State) (k : Nat) : Nat :=
  if k = 8 then rd s pwrAmpsFp4 else if k = 4 then rd s pwrAmpsFp8 else if k = 2 then rd s pwrAmpsBf16 else rd s pwrAmpsFp32

/-- Clocked sixteenths of a lane at level `lv` under throttle `thr` (R351); 0 when gated. -/
def sixteenths (on : Bool) (lv thr : Nat) : Nat := if on then 16 - max lv thr else 0

/-- The k whose current a lane draws: its work's, or that of its filler (R355). -/
def laneK (s : State) (l : Lane) : Nat := (laneWork s l).getD (arrayOf s l.d).k

/-- Whether a gated lane could work if it were clocked: its pass goes on once input returns, its next one can begin (R105). -/
def laneCan (s : State) (l : Lane) : Bool :=
  let t : State := (laneArrays l).foldl (fun s a => setArray s a { arrayOf s a with on := true }) s
  (s.bist.key.isSome && s.cmds.any (fun c => s.bist.key == some c.key && (laneArrays l).any (bitOf (bistUnits c.desc)))) ||
    (laneArrays l).any (fun a => (issueMove t a).isSome || (slotMove t a).isSome || (List.range 256).any (fun n => (patchMove t a n).isSome))

/-- The pending ramp step of a lane: up, down or none (R346, R352, R355). A lane whose work waits stays gated. -/
def laneStep (s : State) (l : Lane) : Option Bool :=
  let x := arrayOf s l.d
  let up := s.power.state == .rampUp || s.power.state == .active || s.power.state == .drain
  let spent := (laneArrays l).all (fun a => (arrayOf s a).filler)
  if x.on && (s.power.state == .rampDown || spent) then some false
  else if up && (laneWork s l).isSome && (if x.on then 0 < x.level else laneCan s l) then some true
  else none

/-- The on flag and level after a step. -/
def stepped (x : ArraySt) (up : Bool) : Bool × Nat :=
  if up then (if x.on then (true, x.level - 1) else (true, 15))
  else if x.level = 15 then (false, 15) else (true, x.level + 1)

/-- Take a step of a lane: both arrays hold the same level (R352). -/
def takeStep (s : State) (l : Lane) (up : Bool) : State :=
  let x := arrayOf s l.d
  let n := stepped x up
  let s1 := (laneArrays l).foldl (fun s a =>
    let y := arrayOf s a
    setArray s a { y with on := n.1, level := n.2, filler := y.filler && n.1 }) s
  if up && !x.on then bump s1 pwrRampsUp 1 else if !n.1 then bump s1 pwrRampsDown 1 else s1

/-- The cost of a change of clocked sixteenths over `n` arrays of AMPS `a`, in 1/800 A. -/
def stepCost (before after n a : Nat) : Nat := (max before after - min before after) * a * n * 50

/-- The governor's run over the pending steps: the state, and whether credit ran out. -/
structure GovRun where
  st   : State
  stop : Bool

/-- One pending lane in lane order (R353). -/
def govLane (r : GovRun) (l : Lane) : GovRun :=
  let s := r.st
  match if r.stop then none else laneStep s l with
  | none => r
  | some up =>
    let x := arrayOf s l.d
    let n := stepped x up
    let thr := s.power.thrEff
    let cost := stepCost (sixteenths x.on x.level thr) (sixteenths n.1 n.2 thr) (laneArrays l).length (ampsOf s (laneK s l))
    if cost ≤ s.power.credit then
      ⟨takeStep { s with power := { s.power with credit := s.power.credit - cost } } l up, false⟩
    else ⟨s, true⟩

/-- The throttle level asked for: the larger of the P-port's and the floor (R356). -/
def throttleAsked (s : State) : Nat := max (rd s pwrThrCtlHost) (rd s pwrThrCtlFloor)

/-- A rise of the throttle acts at once (R356). -/
def throttleRise (s : State) : State := { s with power := { s.power with thrEff := max s.power.thrEff (throttleAsked s) } }

/-- The lanes of the map, every single array among them. -/
def allLanes (s : State) : List Lane := lanes s true

/-- The pending fall of the throttle by one level, last in the list (R353, R356). -/
def govThrottle (r : GovRun) : GovRun :=
  let s := r.st
  let t := s.power.thrEff
  if r.stop || t ≤ throttleAsked s then r
  else
    let cost := (allLanes s).foldl (fun c l =>
      let x := arrayOf s l.d
      c + stepCost (sixteenths x.on x.level t) (sixteenths x.on x.level (t - 1)) (laneArrays l).length (ampsOf s (laneK s l))) 0
    if cost ≤ s.power.credit then
      ⟨{ s with power := { s.power with credit := s.power.credit - cost, thrEff := t - 1 } }, false⟩
    else ⟨s, true⟩

/-- Whether anything waits for the governor. -/
def govPending (s : State) : Bool := (allLanes s).any (fun l => (laneStep s l).isSome) || throttleAsked s < s.power.thrEff

/-- One keep cycle of the governor (R353). -/
def governor (s : State) : State :=
  if !(govPending s) then { s with power := { s.power with credit := 0 } }
  else
    let s := { s with power := { s.power with credit := s.power.credit + 16 * budget s } }
    let r := govThrottle ((allLanes s).foldl govLane ⟨s, false⟩)
    if r.stop then bump r.st pwrGovWaitCount 1 else r.st

/-- The lane of an array that has failed is gated (R357). -/
def gateFailed (s : State) : State :=
  (allLanes s).foldl (fun s l =>
    if (laneArrays l).any (fun a => failedArray s a) then
      (laneArrays l).foldl (fun s a => setArray s a { arrayOf s a with on := false, level := 15, filler := false }) s
    else s) s

/-- The current estimate in amperes (R359), rounded down; in KEEP it stays. -/
def currentEstimate (s : State) : Nat :=
  let arr := (allLanes s).foldl (fun n l =>
    let x := arrayOf s l.d
    n + ampsOf s (laneK s l) * sixteenths x.on x.level s.power.thrEff * (laneArrays l).length) 0
  match s.power.state with
  | .off => 0
  | .keep => rd s pwrCurEstAmps
  | .idle => rd s pwrAmpsIdleAmps + arr / 16
  | _ => rd s pwrAmpsBusyAmps + arr / 16

/-! ### Transitions (R346, R347) -/

/-- Whether every lane that holds work is at ramp level 0. -/
def rampedUp (s : State) : Bool :=
  (allLanes s).all (fun l => (laneWork s l).isNone || ((arrayOf s l.d).on && (arrayOf s l.d).level == 0) || (!(arrayOf s l.d).on && !(laneCan s l)))

/-- Whether every live array is gated or filler-only past its bridge, and whether every one is gated. -/
def allSpent (s : State) : Bool := (allLanes s).all (fun l => (laneArrays l).all (fun a => !(arrayOf s a).on || (arrayOf s a).filler))
def allGated (s : State) : Bool := (List.range 24).all (fun a => !(arrayOf s a).on)

/-- Whether a fired SNAP waits for the clocks. -/
def firedWaits (s : State) : Bool := s.cmds.any (fun c => c.key == firedKey)

/-- One move of the state machine (R346). -/
def powerMove (s : State) : State :=
  match s.power.state with
  | .keep =>
    if s.power.clk == .stopped && !s.power.ack && (target s != 0 || firedWaits s) then setClk s .leavingRetention else s
  | .idle =>
    if s.power.clk != .running then s
    else if target s == 2 && workReady s then setPower s .rampUp
    else if target s == 0 && keepOk s then setClk s .quiescing
    else s
  | .rampUp => if rampedUp s then setPower s .active else s
  | .active =>
    if target s == 2 && allSpent s && !(workReady s) then
      setPower { s with power := { s.power with descent := false } } .rampDown
    else s
  | .drain => if workRemains s then s else setPower { s with power := { s.power with descent := true } } .rampDown
  | .rampDown =>
    if !s.power.descent && target s == 2 && workReady s then setPower s .rampUp
    else if allGated s then setPower { s with power := { s.power with descent := false, restart := false } } .idle
    else s
  | .off => s

/-! ### Clock sequences (R349, R399, R403) -/

/-- CLOCK_REQUEST: the memories have left retention (R349). -/
def execClockRequest (s : State) : Host.Outcome State Fault Refusal :=
  if awake s && s.power.clk == .leavingRetention && !s.power.ack then
    .next (settle s { s with power := { s.power with clk := .requesting, req := true, slow := false } })
  else .next s

/-- PCLK_ACK_RISE: the fast clocks are taken as running; a lost acknowledge that returns lets the work go on (R403). Under a reset or without
power only the input's level changes. -/
def execPclkAckRise (s : State) : Host.Outcome State Fault Refusal :=
  if awake s && s.power.req && !s.power.ack then
    .next (settle s { s with power := { s.power with
      ack := true, slow := false, clk := if s.power.clk == .requesting then .starting else s.power.clk } })
  else if awake s then .next s
  else .next (settle s { s with power := { s.power with ack := true } })

/-- Interrupt messages of the vectors whose summary is 1 at the wake (R398). -/
def wakeMessages (s : State) : State :=
  (List.range 4).foldl (fun s v => if vecSummary s v then irqMessage s v else s) s

/-- WAKE_DONE: the engine is in IDLE (R349). A descriptor to be armed is asked for (R334). -/
def execWakeDone (s : State) : Host.Outcome State Fault Refusal :=
  if awake s && s.power.clk == .starting && s.power.ack then
    .next (settle s (powerMove (askSnapDesc (wakeMessages (setPower (setClk s .running) .idle)))))
  else .next s

/-- SLEEP_QUIESCENCE_END: the request is withdrawn; the change into KEEP is traced while the port clock runs (R436). When KEEP is no longer to
be entered the engine stays in IDLE, the safe point (R347). -/
def execSleepQuiescenceEnd (s : State) : Host.Outcome State Fault Refusal :=
  if awake s && s.power.clk == .quiescing && s.power.ack then
    if target s == 0 && keepOk s then
      let s1 := powerTrace s .keep
      .next (settle s { s1 with power := { s1.power with clk := .releasing, req := false, slow := false } })
    else
      .next (settle s (powerMove { s with power := { s.power with clk := .running, restart := false } }))
  else .next s

/-- PCLK_ACK_FALL: entry into retention begins; with the request still high the clocks are lost (R403). -/
def execPclkAckFall (s : State) : Host.Outcome State Fault Refusal :=
  if awake s && s.power.ack then
    let s1 := { s with power := { s.power with ack := false, slow := false } }
    .next (settle s (if s.power.req then setEvt s1 evClkLost else
      if s.power.clk == .releasing then setClk s1 .enteringRetention else s1))
  else if awake s then .next s
  else .next (settle s { s with power := { s.power with ack := false } })

/-- RETENTION_ENTRY_DONE: the engine is in KEEP, the other safe point (R347, R349). -/
def execRetentionEntryDone (s : State) : Host.Outcome State Fault Refusal :=
  if awake s && s.power.clk == .enteringRetention then
    .next (settle s (powerMove (enterState { s with power := { s.power with clk := .stopped, restart := false } } .keep)))
  else .next s

/-- CLK_SLOW: an acknowledge has been awaited for 50,000 keep cycles; once for a wait (R349). -/
def execClkSlow (s : State) : Host.Outcome State Fault Refusal :=
  if awake s && !s.power.slow && (s.power.req != s.power.ack) then
    .next (settle s (setEvt { s with power := { s.power with slow := true } } evClkSlow))
  else .next s

/-! ### TARGET (R345 to R347, R358) -/

/-- RESTART_PENDING and its event (R347). -/
def restartPending (s : State) : State := setEvt { s with power := { s.power with restart := true } } evRestart

/-- Entry into DRAIN: with DRAIN_MODE = PREEMPT, started product commands of classes 2 and 3 are saved when their depth is free (R358). -/
def enterDrain (s : State) : State :=
  let s := setPower s .drain
  if rd s pwrStateCtlDrainMode = 1 && rd s cmdSaveBaseAddr ≠ 0 then
    (s.cmds.map (·.key)).foldl (fun s k => match findCmd s k with
      | some v =>
        if isProduct v.desc && v.phase == .started && !v.saved && 2 ≤ classOf s v.q &&
            !(s.cmds.any (fun x => x.saved && classOf s x.q == classOf s v.q)) then preemptAway s v
        else s
      | none => s) s
  else s

/-- What a change of TARGET from `old` does. -/
def targetChange (s : State) (old : Nat) : State :=
  let new := target s
  match s.power.state with
  | .idle => if s.power.clk != .running && old < new then restartPending s else s
  | .rampUp => if new < 2 then enterDrain s else s
  | .active => if new < 2 then enterDrain s else s
  | .drain => if new = 2 then setPower s .active else s
  | .rampDown =>
    if new < old then { s with power := { s.power with descent := true } }
    else if s.power.descent && old < new then restartPending s
    else s
  | _ => s

def targetWrite (v : Nat) (s : State) : State := powerMove (targetChange (writeFields s 0x02 0x100 v) (target s))

/-- POWER_TARGET: a write of PWR.STATE_CTL (R345). -/
def execPowerTarget (v : Word) (s : State) : Host.Outcome State Fault Refusal :=
  portWrite 0x02 (targetWrite v.toNat) s

/-! ### The governor's commands -/

/-- The sampled time of the keep cycle; it steps backward only by TB_STEP (R401, R402). -/
def tickTime (s : State) (time : Nat) : State :=
  if s.tb.valid then
    let t := max s.tb.time time
    { s with tb := { s.tb with time := t, largest := max s.tb.largest t } }
  else s

/-- GOVERNOR_TICK: one keep cycle: the time, the governor, one move of the state machine, the telemetry, valid
from the first keep cycle's end (R353, R359, R400). -/
def execGovernorTick (time : BitVec 64) (s : State) : Host.Outcome State Fault Refusal :=
  if awake s then
    let s1 := setEvtIf (!s.tb.valid) (tickTime s time.toNat) evTbLost
    let s2 := if portClock s1 then governor (gateFailed { s1 with quiet := s1.quiet - 30 }) else s1
    let s3 := powerMove s2
    .next (settle s (wr { s3 with power := { s3.power with curOk := true } } pwrCurEstAmps (currentEstimate s3)))
  else .next s

/-- THROTTLE_CHANGE: sampled on the array clock (R356, R400). -/
def execThrottleChange (level : BitVec 4) (s : State) : Host.Outcome State Fault Refusal :=
  if awake s && portClock s then .next (settle s (throttleRise (wr s pwrThrCtlHost level.toNat))) else .next s

/-- BUDGET_CHANGE: 1 to 15 are read as 16, values above 256 as 256 (R400); the input is followed under a reset too. -/
def execBudgetChange (b : BitVec 9) (s : State) : Host.Outcome State Fault Refusal :=
  let n := b.toNat
  .next (settle s (wr s pwrBudgetHost (if n = 0 then 0 else if n < 16 then 16 else min n 256)))

/-- FILLER_BRIDGE_EXPIRY: the array's filler has run its 4,096 clocked cycles; the governor ramps it down (R105, R355). -/
def execFillerBridgeExpiry (a : BitVec 5) (s : State) : Host.Outcome State Fault Refusal :=
  let x := arrayOf s a.toNat
  if unitsRun s && x.on && !x.filler then .next (settle s (setArray s a.toNat { x with filler := true })) else .next s

end Sys2Proof.Machine
end

