-- ==== Sys2Proof/Machine/Sca.lean ====
section
/-! DEFINITION. The scatter-accumulate unit (09 R232 to R243): GATHER and SCATTER, window by window. -/

namespace Sys2Proof.Machine

/-! ### Fields (R232, R303) -/

def gN (d : List Byte) : Nat := dNum d 0x40 4
def gTrows (d : List Byte) : Nat := dNum d 0x44 4
def gCols (d : List Byte) : Nat := dNum d 0x48 2
def gTfmt (d : List Byte) : Nat := bitsOf (dNum d 0x4A 1) 0 4
def gGroup (d : List Byte) : Nat := bitsOf (dNum d 0x4B 1) 0 6
def gAccum (d : List Byte) : Bool := bitOf (dNum d 0x4C 1) 0
def gToGroup (d : List Byte) : Bool := bitOf (dNum d 0x4C 1) 1
def gRnd (d : List Byte) : Nat := bitsOf (dNum d 0x4C 1) 2 2
def gSat (d : List Byte) : Bool := bitOf (dNum d 0x4C 1) 4
def gPitch (d : List Byte) : Int := signedOf (dNum d 0x30 8) 64
def gDense (s : State) (d : List Byte) : Layout := layoutAt s (dNum d 0x20 8)

/-- The floating-point layout of a table or dense format: codes 0x0 to 0x4 and binary64. -/
def codeFF (code : Nat) : FloatFmt := if code = 0xA then ffB64 else ((fmtOf code).getD .fp32).ff

/-- Windows of 16,384 dense rows (R236). -/
def scaRows : Nat := 16384
def scaWindows (d : List Byte) : Nat := ceilDiv (gN d) scaRows

/-! ### Indices and table rows -/

/-- Index word `r` as a signed number. -/
def idxAt (s : State) (d : List Byte) (r : Nat) : Int := signedOf (s.num (dNum d 0x38 8 + 4 * r) 4) 32

/-- The table row of an index under the policy; none when the row is dropped (R234). -/
def idxRow (policy trows : Nat) (i : Int) : Option Nat :=
  if 0 ≤ i && i < (trows : Int) then some i.toNat
  else if policy = 1 && -(trows : Int) ≤ i && i < 0 then some (i + trows).toNat
  else none

/-- The lowest row whose index the FAULT policy refuses (R235). -/
def idxFault (s : State) (d : List Byte) : Option Nat :=
  (List.range (gN d)).find? (fun r => (idxRow 2 (gTrows d) (idxAt s d r)).isNone)

/-- The address of element `c` of table row `t`. -/
def tableAddr (d : List Byte) (t c : Nat) : Nat :=
  localAddr (dNum d 0x28 8) ((t : Int) * gPitch d + (c * (codeBits (gTfmt d) / 8) : Nat))

def tableVal (s : State) (d : List Byte) (t c : Nat) : Val :=
  decodeFloat (codeFF (gTfmt d)) (s.num (tableAddr d t c) (codeBits (gTfmt d) / 8))

/-- The replacement of a non-finite element under MEND in a plain format (R67). -/
def mendPlain (code : Nat) (v : Val) : Val :=
  match v with
  | .nan => .fin false 0 0
  | .inf neg => codeVal (codeFF code) neg (ffMaxCode (codeFF code))
  | v => v

/-- Element `c` of the row that moves with dense row `r`: a table row of GATHER, a dense row of SCATTER; mended under MEND (R241). -/
def movedVal (s : State) (c : Cmd) (r t q : Nat) : Val :=
  let d := c.desc
  let v := if dOp d = 0x18 then tableVal s d t q else loadVal s (gDense s d) r q
  if c.lat.policy = 3 then mendPlain (if dOp d = 0x18 then gTfmt d else (gDense s d).code) v else v

/-- Whether the row that moves holds a non-finite element. -/
def movedBad (s : State) (c : Cmd) (r t : Nat) : Bool :=
  let c0 := { c with lat := { c.lat with policy := 0 } }
  (List.range (gCols c.desc)).any (fun q => (movedVal s c0 r t q).nonFinite)

/-! ### One window -/

/-- The dense rows of window `w`. -/
def windowDense (d : List Byte) (w : Nat) : List Nat :=
  (List.range (min scaRows (gN d - scaRows * w))).map (scaRows * w + ·)

/-- The pair (table row, dense row) of a row that the ledger lets in and whose index is used (R225, R234, R236). -/
def rowPair (s : State) (c : Cmd) (r : Nat) : Option (Nat × Nat) :=
  if ledgerDecide (viewOf s c) (tagOf s c.desc r) == .enter then
    (idxRow c.lat.idxPolicy (gTrows c.desc) (idxAt s c.desc r)).map (fun i => (i, r))
  else none

/-- The pairs of a window that the tree sorts. -/
def windowPairs (s : State) (c : Cmd) (w : Nat) : List (Nat × Nat) := (windowDense c.desc w).filterMap (rowPair s c)

/-- What a window's rows become: the pairs that take part, and the counters. -/
structure WinRows where
  st    : State
  pairs : List (Nat × Nat)
  marks : List QMark
  trap  : Option (Nat × Nat)
  nf    : Nat

/-- Decide one row: ledger, index policy, screen (R225, R234, R241). -/
def windowRow (c : Cmd) (a : WinRows) (r : Nat) : WinRows :=
  let s := a.st
  let t := tagOf s c.desc r
  match ledgerDecide (viewOf s c) t with
  | .enter =>
    match rowPair s c r with
    | none => { a with st := setEvt (bump s scaIdxDroppedCount 1) evIdxDrop }
    | some p =>
      let bad := movedBad s c r p.1
      let j := judgeRow s (viewOf s c) c.lat.policy t bad
      match j.2.1 with
      | .part => { a with st := j.1, pairs := a.pairs ++ [p], nf := a.nf + if bad then 1 else 0 }
      | .husked => { a with st := j.1, marks := a.marks ++ j.2.2, nf := a.nf + if bad then 1 else 0 }
      | .trap => { a with st := j.1, trap := some (a.trap.getD (r, tagSlot t)), nf := a.nf + if bad then 1 else 0 }
  | x => { a with st := countHusk s t x }

/-- The store format of the narrowing store (R44, R232); SR draws at point 4 (R71). -/
def scaFmt (c : Cmd) (code : Nat) : StoreFmt :=
  ⟨(fmtOf code).getD .fp32, false, (rndOf (gRnd c.desc)).getD .rne, gSat c.desc, ⟨c.lat.seed, 4, dTid c.desc, dStep c.desc⟩⟩

/-- Store one table element: binary64 exactly, else rounded once (R239). -/
def storeTable (s : State) (c : Cmd) (t q : Nat) (v : Val) : State :=
  let d := c.desc
  if gTfmt d = 0xA then s.store (tableAddr d t q) (natLE (encodeRNE ffB64 v) 8)
  else
    let x := storeElem (scaFmt c (gTfmt d)) (t * gCols d + q) v
    let s := s.store (tableAddr d t q) (natLE x.1 (codeBits (gTfmt d) / 8))
    if x.2 then bump s scaSatEventsCount 1 else s

/-- The distinct table rows of sorted pairs, each with its dense rows ascending (R236). -/
def mergePairs (ps : List (Nat × Nat)) : List (Nat × List Nat) :=
  let sorted := sortBy (·.1) ps
  sorted.foldl (fun l p =>
    match l.reverse with
    | (i, rs) :: rest => if i == p.1 then (rest.reverse) ++ [(i, rs ++ [p.2])] else l ++ [(p.1, [p.2])]
    | [] => [(p.1, [p.2])]) []

/-- GATHER: every row of the window is written, +0 where it took no part (R234, R237). -/
def gatherWrite (s : State) (c : Cmd) (w : Nat) (ps : List (Nat × Nat)) : State :=
  let d := c.desc
  let l := gDense s d
  let val := fun r q =>
    if r / scaRows = w then
      match ps.find? (fun p => p.2 == r) with
      | some p => some (movedVal s c r p.1 q)
      | none => some (.fin false 0 0)
    else none
  storeOutput s l (scaFmt c l.code) (gN d) (gCols d) (fun _ _ => scaSatEventsCount) val

/-- SCATTER STORE: the highest dense row of each table row (R238). -/
def scatterWrite (s : State) (c : Cmd) (ms : List (Nat × List Nat)) : State :=
  ms.foldl (fun s m => match m.2.getLast? with
    | some r => (List.range (gCols c.desc)).foldl (fun s q => storeTable s c m.1 q (movedVal s c r m.1 q)) s
    | none => s) s

/-- The binary64 sum of a table element and its contributions (R239). -/
def accumVal (s : State) (c : Cmd) (m : Nat × List Nat) (q : Nat) : Val :=
  decodeFloat ffB64 ((m.2.foldl (fun a r => b64Add a (BitVec.ofNat 64 (encodeRNE ffB64 (movedVal s c r m.1 q))))
    (BitVec.ofNat 64 (encodeRNE ffB64 (tableVal s c.desc m.1 q)))).toNat)

/-- SCATTER ACCUM to memory; the second component is POISON (R239). -/
def accumWrite (s : State) (c : Cmd) (ms : List (Nat × List Nat)) : State × Bool :=
  ms.foldl (fun a m => (List.range (gCols c.desc)).foldl (fun a q =>
    let v := accumVal s c m q
    (storeTable a.1 c m.1 q v, a.2 || v.nonFinite)) a) (s, false)

/-- The contributions of a window to the tiles of the group, in ascending tile: (tile, cells with dense rows ascending) (R240). -/
def groupCells (s : State) (c : Cmd) (ps : List (Nat × Nat)) : List (Nat × List (Nat × BitVec 64)) :=
  let x := groupOf s (gGroup c.desc)
  let all := (sortBy (·.1) ps).flatMap (fun p => (List.range (gCols c.desc)).map (fun q =>
    ((p.1 / 256) * groupTC x + q / 256, ((p.1 % 256) * 256 + q % 256, BitVec.ofNat 64 (encodeRNE ffB64 (movedVal s c p.2 p.1 q))))))
  ((List.range (groupTiles x)).map (fun t => (t, (all.filter (fun e => e.1 == t)).map (·.2)))).filter (fun e => !e.2.isEmpty)

/-- The writes of a window by the command's form. -/
def windowWrite (s : State) (c : Cmd) (w : Nat) (ps : List (Nat × Nat)) : State × Cmd :=
  let d := c.desc
  let ms := mergePairs ps
  if dOp d = 0x18 then (gatherWrite s c w ps, c)
  else if !(gAccum d) then (scatterWrite s c ms, c)
  else if !(gToGroup d) then
    let r := accumWrite s c ms
    (r.1, { c with flags := c.flags ||| flagIf r.2 flPoison })
  else
    let r := foldTiles s c (gGroup d) (groupCells s c ps)
    (r.1, noteFold c r.2)

/-! ### Reads (R235, R236) -/

/-- The index words and tags of window `w`. -/
def indexRuns (d : List Byte) (w : Nat) : List (Nat × Nat) :=
  let n := (windowDense d w).length
  let at' := fun (b : Nat) => (b + 4 * scaRows * w, 4 * n)
  at' (dNum d 0x38 8) :: (if dTags d = 0 then [] else [at' (dTags d)])

/-- The rows window `w` reads: each distinct table row of GATHER and of ACCUM to memory, each dense row of SCATTER (R236, R237). -/
def rowRuns (s : State) (c : Cmd) (w : Nat) : List (Nat × Nat) :=
  let d := c.desc
  let ps := windowPairs s c w
  let table := (sortBy id (ps.map (·.1)).eraseDups).map (fun t => (tableAddr d t 0, gCols d * (codeBits (gTfmt d) / 8)))
  if dOp d = 0x18 then table
  else ps.flatMap (fun p => regionRuns (gDense s d) p.2 1 0 (gCols d)) ++ (if gAccum d && !(gToGroup d) then table else [])

/-- Ask for a part of the operands and count its bytes (R246). -/
def scaAsk (s : State) (c : Cmd) (rs : List (Nat × Nat)) : State :=
  let s1 := bump s scaRdBytesCount (rs.foldl (fun n r => n + r.2) 0)
  modCmd (askReads s1 c.key 7 c.asked rs) c.key (fun c => { c with asked := c.asked + 1 })

/-- The parts of a command are the prescan, then for each window its indices with their tags and its rows: whether a window is under way. -/
def midWindow (c : Cmd) : Bool := 1 + 2 * c.window < c.asked

/-- Process the window whose rows have been read (R236): its pairs, its writes and the counters. Under TRAP a window with a marked row writes
nothing and the command ends (R241); the ledger counts every row of that window all the same (DESIGN CHOICE, log 69). -/
def scaWindow (s : State) (c : Cmd) : State × Cmd :=
  let d := c.desc
  let w := c.window
  let a := (windowDense d w).foldl (windowRow c) ⟨s, [], [], none, 0⟩
  let adv := { c.adv with screenNf := satAdd 32 c.adv.screenNf a.nf }
  let ps := windowPairs s c w
  let c := { c with window := w + 1, marks := c.marks ++ a.marks, adv := adv, screened := min (gN d) (scaRows * (w + 1)), trapRow := a.trap }
  let s1 := bump (bump a.st scaPairsCount ps.length) scaMergedCount (ps.length - (mergePairs ps).length)
  if a.trap.isSome then (s1, c)
  else
    let n := s1.wbuf.length
    let x := windowWrite s1 c w a.pairs
    let s2 := bump x.1 scaWindowsCount 1
    (if gToGroup d && dOp d = 0x19 then s2 else bump s2 scaWrBytesCount (s2.wbuf.length - n), x.2)

/-- End a GATHER or SCATTER after its last window or a trap; the quarantine marks take effect (R228). -/
def scaEnd (s : State) (c : Cmd) : State :=
  let s := applyMarks s c.marks
  let c := { c with marks := [] }
  match c.trapRow with
  | some t => endCmd (tearWritten (putCmd s c) c) c.key stFpTrap 0 t.2
  | none =>
    let s := (writtenGroups c.desc).foldl (fun s g => mendGroup s g (dStamp c.desc) c.status) (putCmd s c)
    endCmd s c.key c.status 0 0

/-- Bytes of the failing window's table rows become undefined: free values (R243). -/
def scaUndefined (s : State) (c : Cmd) (w : Nat) : State :=
  let d := c.desc
  let rows := ((windowDense d w).filterMap (fun r => idxRow c.lat.idxPolicy (gTrows d) (idxAt s d r))).eraseDups
  rows.foldl (fun s t => freeRun s (tableAddr d t 0, gCols d * (codeBits (gTfmt d) / 8))) s

/-- Abort a GATHER or SCATTER on an M-port error; ACCUM to memory names the failing window, whose table rows are undefined (R243). -/
def scaAbort (s : State) (c : Cmd) (w : Nat) : State :=
  if dOp c.desc = 0x19 && gAccum c.desc && !(gToGroup c.desc) then
    endCmd (scaUndefined s c w) c.key (worstErr c) 0 w
  else abortCmd s c

/-- The refusal of the prescan of FAULT, if an index is out of range (R235). -/
def scaRefused (s : State) (c : Cmd) : Option State :=
  if c.lat.idxPolicy = 2 && c.window = 0 then
    (idxFault s c.desc).map (fun r =>
      endCmd (setEvt (wr s scaFaultPosPos r) evIdxFault) c.key stIdxFault 0 r)
  else none

/-- Whether the command is one of the unit's and not ended. -/
def scaCmd (c : Cmd) : Bool := (dOp c.desc == 0x18 || dOp c.desc == 0x19) && c.phase == .started

/-- Whether the unit takes this command next (R242, R311): a window under way is finished first; then the lower class, in a class the command
under way, then the earlier doorbell. -/
def scaTurn (s : State) (c : Cmd) : Bool :=
  midWindow c || s.cmds.all (fun e => e.key == c.key || !(scaCmd e) ||
    (!(midWindow e) && (classOf s c.q < classOf s e.q ||
      (classOf s c.q == classOf s e.q && (c.asked != 0 || (e.asked == 0 && goesBefore s c e))))))

/-- Whether the rows of the window may be committed now: the writes of the window before are acknowledged (R236), and a group takes them. -/
def scaCommits (s : State) (c : Cmd) : Bool :=
  !(writesPending s c.key) && (writtenGroups c.desc).all (fun g => foldTurn s c g && !(groupBusy s g))

/-- ORDERED counts a GATHER to an aliasing dense layout (R191, R237). -/
def scaOrdered (s : State) (c : Cmd) : State :=
  if dOp c.desc = 0x18 && !(disjointLayout (gDense s c.desc)) then bump s trwOrderedCount 1 else s

/-- The window a failed access belongs to: the one before when a write of it failed (its loader code is 6), else the present one (R243). -/
def failedWindow (c : Cmd) : Nat := if c.errs.any (fun e => e.1 == 6) then c.window - 1 else c.window

/-- Commit the window; the last one, or a trap, ends the command. -/
def scaCommit (s : State) (c : Cmd) : State :=
  let x := scaWindow (readView s c.key 7) c
  let s1 := putCmd x.1 x.2
  let s2 := if x.2.trapRow.isSome || scaWindows x.2.desc ≤ x.2.window then scaEnd (scaOrdered s1 x.2) x.2 else s1
  awaitWrites { s2 with staged := s2.staged.filter (fun e => !(e.key == c.key && e.core == 7)) } c.key 6

/-- The next action of the unit on a command whose reads are answered: the prescan under FAULT (R235), the indices and tags of the window, its
rows once the ledger view is taken (R227), its commit. -/
def scaStep (s : State) (c : Cmd) : Option State :=
  let v := readView s c.key 7
  if !c.errs.isEmpty then some (scaAbort v c (failedWindow c))
  else if c.asked = 0 then some (scaAsk s c (if c.lat.idxPolicy = 2 then [(dNum c.desc 0x38 8, 4 * gN c.desc)] else []))
  else if c.asked = 1 + 2 * c.window then
    some ((scaRefused v c).getD (scaAsk s c (indexRuns c.desc c.window)))
  else if c.asked = 2 + 2 * c.window then
    if canScreen s c && !(gAccum c.desc && writesPending s c.key) then
      let c1 := if c.view.isNone && takesView c.desc then { c with view := some s.ledger } else c
      some (scaAsk (putCmd s c1) c1 (rowRuns v c1 c.window))
    else none
  else if scaCommits s c then some (scaCommit s c) else none

/-- Run the unit on a command of one form. -/
def runSca (s : State) (key : Nat) (ok : Cmd → Bool) : Host.Outcome State Fault Refusal :=
  match findCmd s key with
  | some c => if runnable s c && scaCmd c && ok c && scaTurn s c then .next ((scaStep s c).elim s (settle s)) else .next s
  | none => .next s

/-- GATHER (R237). -/
def execGather (r : CmdRef) (s : State) : Host.Outcome State Fault Refusal := runSca s (refKey r) (isOp 0x18)

/-- SCATTER STORE (R238). -/
def execScatterStore (r : CmdRef) (s : State) : Host.Outcome State Fault Refusal :=
  runSca s (refKey r) (fun c => isOp 0x19 c && !(gAccum c.desc))

/-- SCATTER ACCUM to memory (R239). -/
def execScatterAccum (r : CmdRef) (s : State) : Host.Outcome State Fault Refusal :=
  runSca s (refKey r) (fun c => isOp 0x19 c && gAccum c.desc && !(gToGroup c.desc))

/-- SCATTER ACCUM into a group (R240). -/
def execScatterAccumGroup (r : CmdRef) (s : State) : Host.Outcome State Fault Refusal :=
  runSca s (refKey r) (fun c => isOp 0x19 c && gAccum c.desc && gToGroup c.desc)

/-- SCA_WINDOW: the commit of one window of the command, whichever its form (R236). -/
def execScaWindow (r : CmdRef) (s : State) : Host.Outcome State Fault Refusal :=
  runSca s (refKey r) (fun c => c.asked = 3 + 2 * c.window)

end Sys2Proof.Machine
end

