-- ==== Sys2Proof/Machine/Queue.lean ====
section
/-! DEFINITION. The command processor (12 R293 to R325): doorbells, descriptor fetch, the start of a command and what it waits for,
queue states, completion records, and the commands NOP, FENCE and STAMP. -/

namespace Sys2Proof.Machine

/-! ### Counts and states of a queue (R293 to R298) -/

/-- The ring size of a queue. -/
def ringSize (s : State) (q : Nat) : Nat := 2 ^ rd s (queRingCtlSizeLog2 q)

/-- The started commands of a queue that have not completed. -/
def queueCmds (s : State) (q : Nat) : List Cmd := s.cmds.filter (fun c => c.q == q)

def setQState (s : State) (q : Nat) (st : QState) : State := setQueue s q { queueOf s q with state := st }

/-- The end of a drain: with no command left, DISABLED, or RUNNING when ENABLE has been written to 1 meanwhile (R297). -/
def drained (s : State) (q : Nat) : State :=
  let x := queueOf s q
  if x.state == .draining && x.fetched.isEmpty && (queueCmds s q).isEmpty then
    setQueue s q { x with state := if x.again then .running else .disabled, again := false }
  else s

/-- A queue halts (R297). -/
def haltQueue (s : State) (q seq status : Nat) : State :=
  setEvt (wr (wr (setQState s q .halted) (queErrSeq q) seq) (queErrStatus q) status) (evHalt q)

/-! ### Doorbell (R295) -/

/-- Whether the engine accepts a new TAIL. -/
def doorbellOk (s : State) (q tail : Nat) : Bool :=
  !(serialLt tail (rd s (queTailCount q))) &&
    !(serialLt ((rd s (queRetiredCount q) + ringSize s q) % 2 ^ 32) tail)

/-- A write of QUE.DOORBELL. -/
def ringDoorbell (q tail : Nat) (s : State) : State :=
  if doorbellOk s q tail then
    let x := queueOf s q
    let bells := if tail = rd s (queTailCount q) then x.bells else x.bells ++ [(tail, now s)]
    wr (setQueue s q { x with bells := bells }) (queTailCount q) tail
  else
    let s1 := if rd s cmdBadDoorbellCount = 0 then wr s cmdBadDoorbellQueue q else s
    setEvt (setEvt (bump s1 cmdBadDoorbellCount 1) evBadDoorbell) (evBadValue (0x30 + q))

/-- DOORBELL. -/
def execDoorbell (q : BitVec 4) (tail : BitVec 32) (s : State) : Host.Outcome State Fault Refusal :=
  portWrite (0x30 + q.toNat) (ringDoorbell q.toNat tail.toNat) s

/-! ### RING_CTL, RESUME, SETPTR (R297, R298) -/

/-- Whether the pointers and the ring's fields may change. -/
def queueIdle (s : State) (q : Nat) : Bool := (queueOf s q).state == .disabled && (queueCmds s q).isEmpty

/-- Write a field that R298 guards. -/
def writeGuarded (q v : Nat) (s : State) (f : Field) : State :=
  let x := bitsOf v f.lo f.width
  if !(fieldLegal f x) then setEvt s (evBadValue f.page)
  else if x = rd s f then s
  else if queueIdle s q then wr s f x
  else setEvt s (evBadValue f.page)

/-- Whether a waiting FENCE has its targets (R306). -/
def fenceReached (s : State) (d : List Byte) : Bool :=
  (List.range 16).all (fun q => !(bitOf (dNum d 0x20 2) q) || !(serialLt (rd s (queRetiredCount q)) (dNum d (0x24 + 4 * q) 4)))

/-- A queue enters DRAINING: its FENCE ends, with FLUSHED when its targets are not reached (R297, R306). -/
def startDrain (s : State) (q : Nat) : State :=
  let s1 := setQueue s q { queueOf s q with state := .draining, again := false }
  let fs := (queueCmds s1 q).filter (fun c => dOp c.desc == 0x30 && (c.phase == .started || c.phase == .begun))
  drained (fs.foldl (fun s c => endCmd s c.key (if fenceReached s c.desc then stOK else stFlushed) 0 0) s1) q

/-- ENABLE written (R297). -/
def writeEnable (s : State) (q : Nat) (on : Bool) : State :=
  let x := queueOf s q
  match x.state, on with
  | .disabled, true => setQState s q .running
  | .running, false => startDrain s q
  | .halted, false => startDrain s q
  | .draining, b => setQueue s q { x with again := b }
  | _, _ => s

/-- A write of QUE.RING_CTL: every field on its own, then ENABLE. -/
def ringCtlWrite (q v : Nat) (s : State) : State :=
  let s1 := writeGuarded q v (writeGuarded q v s (queRingCtlSizeLog2 q)) (queRingCtlClass q)
  let s2 := [queRingCtlEnable q, queRingCtlStopOnErr q, queRingCtlIrqAll q].foldl (writeField v) s1
  writeEnable s2 q (bitOf v 16)

/-- QUEUE_ENABLE: RING_CTL written with ENABLE 1. -/
def execQueueEnable (q : BitVec 4) (ctl : Word) (s : State) : Host.Outcome State Fault Refusal :=
  portWrite (0x30 + q.toNat) (ringCtlWrite q.toNat ((ctl ||| 0x10000#64).toNat)) s

/-- QUEUE_DISABLE: RING_CTL written with ENABLE 0. -/
def execQueueDisable (q : BitVec 4) (ctl : Word) (s : State) : Host.Outcome State Fault Refusal :=
  portWrite (0x30 + q.toNat) (ringCtlWrite q.toNat ((ctl &&& ~~~0x10000#64).toNat)) s

/-- GO written to 1 (R297). -/
def resumeQueue (q : Nat) (s : State) : State := if (queueOf s q).state == .halted then setQState s q .running else s

/-- RESUME. -/
def execResume (q : BitVec 4) (s : State) : Host.Outcome State Fault Refusal :=
  portWrite (0x30 + q.toNat) (resumeQueue q.toNat) s

/-- A write of QUE.SETPTR. -/
def setPointers (q v : Nat) (s : State) : State :=
  if queueIdle s q then
    wr (wr (wr (setQueue s q { queueOf s q with bells := [], fetched := [] }) (queTailCount q) v) (queHeadCount q) v)
      (queRetiredCount q) v
  else setEvt s (evBadValue (0x30 + q))

/-- SETPTR. -/
def execSetptr (q : BitVec 4) (v : BitVec 32) (s : State) : Host.Outcome State Fault Refusal :=
  portWrite (0x30 + q.toNat) (setPointers q.toNat v.toNat) s

/-- LCACHE_INV: every entry goes; started commands have read their records (R176). -/
def execLcacheInv (s : State) : Host.Outcome State Fault Refusal :=
  portWrite 0x08 (fun s => { s with lcache := [] }) s

/-! ### Descriptor fetch (R296, R312) -/

/-- Whether a reserved request is a class-0 descriptor fetch. -/
def class0Fetch (s : State) (r : MReq) : Bool := match r.why with
  | .descriptor q _ => classOf s q == 0
  | _ => false

/-- Whether a reserved credit of the port is free: 4 of the 64 serve class-0 descriptor fetches alone (R312). -/
def reservedFree (s : State) (port : Nat) (class0 : Bool) : Bool :=
  hasCredit s port true && (class0 ||
    (s.mreqs.filter (fun r => r.port == port && r.rsv && !(class0Fetch s r))).length < 60)

/-- The address of descriptor `n` of a queue (R293). -/
def descAddr (s : State) (q n : Nat) : Nat := rd s (queRingBaseAddr q) + n % ringSize s q * 128

/-- Whether a queue wants to fetch: RUNNING, below TAIL, with room among its 16. -/
def wantsFetch (s : State) (q : Nat) : Bool :=
  let x := queueOf s q
  x.state == .running && rd s (queHeadCount q) != rd s (queTailCount q) && x.fetched.length < 16

/-- The round-robin distance of a queue from the one its class served last. -/
def turnOf (s : State) (q : Nat) : Nat := (q + 15 - tget 15 s.rrobin (classOf s q)) % 16

/-- Whether the queue's turn has come among those that want to fetch: class 0 first, round-robin within a class. -/
def fetchTurn (s : State) (q : Nat) : Bool :=
  (List.range 16).all (fun p => p == q || !(wantsFetch s p) || classOf s q < classOf s p ||
    (classOf s q == classOf s p && turnOf s q < turnOf s p))

/-- The doorbell instant of command `n`: that of the first bell whose TAIL is past it. -/
def bellOf (x : Queue) (n : Nat) : Nat := ((x.bells.find? (fun b => serialLt n b.1)).map (·.2)).getD 0

/-- Read the next descriptor. -/
def fetchDesc (s : State) (q : Nat) : State :=
  let n := rd s (queHeadCount q)
  let x := queueOf s q
  let s1 := issue s true false (descAddr s q n) 128 (.descriptor q n)
  let s2 := setQueue s1 q { x with
    fetched := x.fetched ++ [⟨n, none, false, [], bellOf x n, []⟩]
    bells := x.bells.filter (fun b => serialLt ((n + 1) % 2 ^ 32) b.1) }
  wr { s2 with rrobin := tput 15 s2.rrobin (classOf s q) q } (queHeadCount q) (n + 1)

/-- DESCRIPTOR_FETCH. -/
def execDescriptorFetch (q : BitVec 4) (s : State) : Host.Outcome State Fault Refusal :=
  let q := q.toNat
  if unitsRun s && wantsFetch s q && fetchTurn s q && reservedFree s (mportOf (descAddr s q (rd s (queHeadCount q)))) (classOf s q == 0) then
    .next (settle s (fetchDesc s q))
  else .next s

/-! ### Memory ranges of a command (R308) -/

/-- A byte range: global address and length. -/
abbrev Range := Nat × Nat

/-- Whether two ranges share a byte. -/
def rangesMeet (a b : Range) : Bool := 0 < a.2 && 0 < b.2 && a.1 < b.1 + b.2 && b.1 < a.1 + a.2

def anyMeet (a b : List Range) : Bool := a.any (fun x => b.any (rangesMeet x))

/-- The ranges a command reads and writes. -/
structure Foot where
  reads  : List Range
  writes : List Range

/-- The boxes of a layout record's array and of its scales. -/
def layRanges (lay : Nat → Layout) (a : Nat) : List Range :=
  let l := lay a
  boxRange l (layoutBox l) :: (if l.mx && l.kind == 0 then
    let sc := scaleOf l (lay l.scale)
    [boxRange sc (layoutBox sc)] else [])

/-- A tile table and its tiles. -/
def tabRanges (s : State) (a : Nat) : List Range :=
  let t := tabAt s a
  (a, 64 + 8 * t.kb * t.ob) ::
    (List.range (t.kb * t.ob)).map (fun i =>
      let e := s.num (a + 64 + 8 * i) 8 / 64 * 64
      (e, 64 + s.num (e + 0x10) 4))

/-- The stationary operand at `a`. -/
def statRanges (s : State) (lay : Nat → Layout) (sform : Bool) (a : Nat) : List Range :=
  if sform then tabRanges s a else layRanges lay a

/-- The ranges of a product command; `out` is the record of its output. -/
def productFoot (s : State) (lay : Nat → Layout) (out : Nat) (d : List Byte) : Foot :=
  { reads := layRanges lay (dNum d 0x20 8) ++ (if pStationary d then statRanges s lay (pSform d) (pW d) else []) ++
      (if pOuter d then layRanges lay (dNum d 0x30 8) else []) ++ (if pDsrc d = 0 then [] else layRanges lay (dNum d 0x38 8)) ++
      (if pAdapt d then layRanges lay (dNum d 0x48 8) else [])
    writes := (if pStores d then layRanges lay out else []) ++
      (if pToGroup d && pSform d && dNum d 0x70 8 != 0 then [(dNum d 0x70 8, ceilDiv (pM d) 8)] else []) }

/-- The home buffer of a group (R162). -/
def homeRange (s : State) (g : Nat) : List Range :=
  let x := groupOf s g
  if x.state == .free then [] else [(x.homeAddr, (x.rows - 1) * x.homePitch + x.cols * homeSize x)]

/-- The table rows of GATHER and SCATTER. -/
def tableRange (d : List Byte) : Range :=
  let b := tableBox d
  (dNum d 0x28 8 / 2 ^ 48 * 2 ^ 48 + b.1.toNat, (b.2 - b.1 + 1).toNat)

/-- The tag array (R223). -/
def tagRange (d : List Byte) : List Range :=
  match cmdRows d with
  | some n => if dTags d = 0 then [] else [(dTags d, 4 * n)]
  | none => []

/-- What a command other than a product reads and writes. LEDGER lists and dumps are counted too (DEDUCED, log 46). -/
def otherFoot (s : State) (lay : Nat → Layout) (d : List Byte) : Foot :=
  let a := dNum d 0x20 8
  match dOp d with
  | 0x01 => ⟨statRanges s lay (pSform d) a, []⟩
  | 0x06 => ⟨[(a, (dNum d 0x30 4 - 1) * dNum d 0x28 8 + dNum d 0x34 4 * (if bitsOf (dNum d 0x3C 1) 0 4 = 0 then 4 else 8))], []⟩
  | 0x08 =>
    if gsPlane d then ⟨[], [(a, planeBytes)]⟩
    else if gsHome d then ⟨[], homeRange s (gsGroup d)⟩ else ⟨[], [(a, gsLimit d)]⟩
  | 0x09 => if gsPlane d then ⟨[(a, planeBytes)], []⟩ else ⟨[(a, gsLimit d)], []⟩
  | 0x11 =>
    let l := lay a
    let n := ceilDiv (axisExtent l true) 256 * ceilDiv (axisExtent l false) 256
    ⟨layRanges lay a, [(dNum d 0x28 8, 64 + 8 * n), (dNum d 0x30 8, dNum d 0x38 8)]⟩
  | 0x18 => ⟨[tableRange d, (dNum d 0x38 8, 4 * dNum d 0x40 4)], layRanges lay a⟩
  | 0x19 => ⟨(dNum d 0x38 8, 4 * dNum d 0x40 4) :: layRanges lay a, if saTdest d then [] else [tableRange d]⟩
  | 0x28 => ⟨[], [(a, snLimit d)]⟩
  | 0x29 => ⟨if a = 0 then [] else [(a, s.num (a + 0x28) 8)], []⟩
  | 0x31 => ⟨[], [(a, 8)]⟩
  | 0x32 =>
    if ledgerOp d = 5 then ⟨[], [(a, 32 * ledgerCount d)]⟩
    else if ledgerOp d = 6 then ⟨[(a, 32 * ledgerCount d)], []⟩
    else if ledgerList d then ⟨[(a, 4 * ledgerCount d)], []⟩ else ⟨[], []⟩
  | _ => ⟨[], []⟩

/-- The ranges of a command that passes its checks; a command without rows touches nothing. -/
def footOf (s : State) (lay : Nat → Layout) (out : Nat) (d : List Byte) : Foot :=
  if zeroRows d then ⟨[], []⟩
  else
    let f := if isProduct d then productFoot s lay out d else otherFoot s lay d
    { f with reads := f.reads ++ tagRange d }

/-- The ranges of a started command. -/
def footStarted (s : State) (e : Cmd) : Foot := if e.refused then ⟨[], []⟩ else footOf s (layoutAt s) e.outRec e.desc

/-! ### What a command waits for (R306 to R308, R325) -/

def common (a b : List Nat) : Bool := a.any (fun x => b.contains x)

/-- Whether the command has not yet had its effect. -/
def atWork (e : Cmd) : Bool := e.phase == .started || e.phase == .begun

/-- Whether earlier command `e` holds the start of `d` by the group conditions; the folds of a product and the writes of a RECV wait by
themselves (R157, R308).
A command that writes a group waits for an earlier GCLEAR or GRESTORE of it to have its effect, and those two wait for one another,
since they share the directory and the frames (DEDUCED, log 51). -/
def groupHolds (e : Cmd) (d : List Byte) : Bool :=
  !e.refused && (common (wholeReads d ++ replaces d) (writtenGroups e.desc ++ replaces e.desc) ||
    (atWork e && (common (writtenGroups d) (replaces e.desc) || (!(replaces d).isEmpty && !(replaces e.desc).isEmpty))) ||
    common (replaces d ++ (if isProduct d || dOp d = 0x21 then [] else writtenGroups d)) (wholeReads e.desc))

def isLedger (d : List Byte) : Bool := dOp d == 0x32

/-- Whether earlier command `e` holds the start of `d` by the ledger condition. -/
def ledgerHolds (e : Cmd) (d : List Byte) : Bool :=
  !e.refused && ((takesView d && isLedger e.desc) ||
    (isLedger d && takesView e.desc && e.view.isNone && atWork e))

/-- The holds of R81, R286 and R339. -/
def epochHolds (s : State) (earlier : List Cmd) (d : List Byte) : Bool :=
  let c := s.epoch.step
  let moving := s.epoch.state == .committing || s.epoch.state == .abandoning
  (usesAdvisor d && c + 1 < dStep d) ||
    (isStaging d && (c + 1 < dStep d || (c < dStep d && (moving ||
      earlier.any (fun e => (dOp e.desc == 0x23 || dOp e.desc == 0x24) && atWork e))))) ||
    (rd s glbRestoreStatPending == 1 && (isStaging d || takesView d || dOp d == 0x23))

/-- Whether a BIST heads a queue (R413). -/
def bistHeads (s : State) : Bool := s.queues.any (fun p =>
  p.2.state == .running && ((p.2.fetched.head?).bind (·.desc)).any (fun d => dOp d == 0x38))

/-- Whether the units and lanes keep a command of class `cls` from starting: the limits of R296 and R307, RESTORE and BIST (R335, R413),
the power state (R343). -/
def unitHolds (s : State) (q : Nat) (d : List Byte) : Bool :=
  let cls := classOf s q
  let others := s.cmds.filter startedCmd
  16 ≤ (others.filter (fun c => c.q == q)).length || 64 ≤ others.length ||
    (cls != 0 && others.any (fun c => dOp c.desc == 0x29 || dOp c.desc == 0x38)) ||
    (dOp d == 0x29 && !others.isEmpty) ||
    (dOp d == 0x38 && others.any (fun c => c.key < firedKey && classOf s c.q != 0)) ||
    (cls != 0 && dOp d != 0x38 && bistHeads s) || (arrayCmd d && !(arraysStart s))

/-- The cause that keeps the head command of a queue from starting, as QSTATE.WAIT codes it; 0 when nothing does (R309, R325). `bad` says
that the command fails a check that needs no engine state: such a command touches nothing. -/
def waitCause (s : State) (q : Nat) (bad : Bool) (d : List Byte) : Nat :=
  let earlier := queueCmds s q
  let idle := bad || zeroRows d
  let mine := if idle then ⟨[], []⟩ else footOf s (startLayout s) (outRecord s d) d
  if dWait d && !earlier.isEmpty then 1
  else if !idle && earlier.any (fun e =>
      let f := footStarted s e
      anyMeet mine.writes (f.reads ++ f.writes) || anyMeet mine.reads f.writes) then 2
  else if !idle && earlier.any (fun e => groupHolds e d) then 3
  else if !idle && earlier.any (fun e => ledgerHolds e d) then 4
  else if earlier.any (fun e => dOp e.desc == 0x30) then 5
  else if !idle && epochHolds s earlier d then 6
  else if unitHolds s q d then 7
  else 0

/-- Whether a command fails the checks that need no engine state (R300 steps 1 to 5). -/
def failsAlone (s : State) (q : Nat) (recFail : List Nat) (d : List Byte) : Bool :=
  !(opcodes.contains (dOp d)) || (firstOf [descriptorFail (classOf s q) d, recordsFail s recFail d]).isSome

/-- Whether reads of the head command's records are outstanding. -/
def recordsWait (s : State) (q seq : Nat) : Bool := (openReqs s).any (fun r => match r.why with
  | .record p n _ => p == q && n == seq
  | _ => false)

/-- QSTATE.WAIT of a queue: the head command's cause, or 8 when nothing waits to start and the oldest started command is saved. -/
def queueWait (s : State) (q : Nat) : Nat :=
  let saved := match queueCmds s q with
    | c :: _ => if c.saved then 8 else 0
    | [] => 0
  match (queueOf s q).fetched with
  | [] => saved
  | f :: _ => match f.desc with
    | none => saved
    | some d => if f.failed then saved else
        let v := recView s f
        waitCause v q (failsAlone v q f.recFail d) d

/-! ### Records read at the start (R174, R176, R247, R277) -/

/-- The job record of a SEND, RECV or APPLY. -/
def startJobAddr (s : State) (d : List Byte) : Nat :=
  let a := dNum d 0x20 8
  if dOp d = 0x22 then (parseParam (s.bytes a 128)).job else a

/-- The layout records a command names. -/
def layoutAddrs (s : State) (d : List Byte) : List Nat :=
  let j := parseJob (s.bytes (startJobAddr s d) 128)
  let at' := fun (b : Bool) (off : Nat) => if b then [dNum d off 8] else []
  if isProduct d then
    at' true 0x20 ++ at' (pStationary d && !(pSform d)) 0x28 ++ at' (pOuter d) 0x30 ++ at' (pDsrc d != 0) 0x38 ++
      (if pStores d && dAdvUse d then (List.range 10).map (fun i => dNum d 0x40 8 + 64 * i) else at' (pStores d) 0x40) ++
      at' (pAdapt d) 0x48
  else match dOp d with
    | 0x01 => at' (!(pSform d)) 0x20
    | 0x11 => at' true 0x20
    | 0x18 => at' true 0x20
    | 0x19 => at' true 0x20
    | 0x20 => if rsMode d = 1 then [j.wrec0, j.wrec1] else []
    | 0x21 => if rsMode d = 1 then [j.wrec0, j.wrec1] else []
    | 0x22 => [j.wrec0, j.wrec1]
    | _ => []

/-- The layout records with their scale records. -/
def layoutReads (s : State) (d : List Byte) : List Nat :=
  (layoutAddrs s d).flatMap (fun a =>
    let l := startLayout s a
    a :: (if l.mx && l.kind == 0 then [l.scale] else []))

/-- The other records: jobs, parameters, hyperparameters, a parameter list with its jobs, as (address, bytes). -/
def otherReads (s : State) (d : List Byte) : List (Nat × Nat) :=
  let a := dNum d 0x20 8
  match dOp d with
  | 0x20 => [(a, 128)]
  | 0x21 => [(a, 128)]
  | 0x22 => [(a, 128), (startJobAddr s d, 128)] ++ (if apOpt d = 4 then [] else [(dNum d 0x28 8, 64)])
  | _ =>
    if dOp d == 0x28 || dOp d == 0x29 then plistReads s d else []

/-- The records of a command as it reads them at its start. -/
def readRecs (s : State) (d : List Byte) : List (Nat × List Byte) :=
  let l := (layoutReads s d).foldl (fun l a => tins l a (cachedBytes s a)) []
  (otherReads s d).foldl (fun l p => tins l p.1 (s.bytes p.1 p.2)) l

/-- Bring a layout record that has been fetched into the cache; a full cache replaces an entry the manual does not name (R176, log 8). -/
def cacheRecord (s : State) (a : Nat) (b : List Byte) : State :=
  if (tfind s.lcache a).isSome then s
  else
    let s := bump s trwLcacheStatMisses 1
    if s.lcache.length < 64 then { s with lcache := tins s.lcache a b }
    else { s with lcache := tins (s.lcache.eraseIdx (Config.lcacheVictim s.lcacheAge % 64)) a b, lcacheAge := s.lcacheAge + 1 }

/-! ### Start (R300, R307) -/

/-- Read the records that are missing for a fetched command (R176, R300). -/
def askRecords (s : State) (q : Nat) (f : Fetched) : State :=
  (missingRecs s (classOf s q) f).foldl (fun s n => askRuns s false (granulePieces n.2.1 n.2.2.1) (.record q f.seq n.1)) s

/-- A command that ends without starting, or refused at its start: only its completion record remains. -/
def refusedCmd (c : Cmd) (status result : Nat) : Cmd := { endedCmd c status 0 result with refused := true }

/-- Take the head descriptor of a queue out and put a command in. -/
def pushCmd (s : State) (q : Nat) (c : Cmd) : State :=
  let x := queueOf s q
  let s1 := setQueue s q { x with fetched := x.fetched.drop 1 }
  { s1 with cmds := s1.cmds ++ [c] }

/-- The SIEVE that guards a command: the one just before it in its queue, when it has not ended (R216). -/
def guardOf (s : State) (q seq : Nat) (d : List Byte) : Option Nat :=
  match findCmd s (q * 2 ^ 32 + (seq + 2 ^ 32 - 1) % 2 ^ 32) with
  | some e => if dOp e.desc == 0x10 && (e.phase == .started || e.phase == .begun) && guardable d then some e.key else none
  | none => none

/-- Whether the command may share a row window: a PLAIN or DX with PACK and at most 256 rows (R113). -/
def packable (d : List Byte) : Bool := (dOp d == 2 || dOp d == 3) && dPack d && pM d ≤ 256

/-- What two commands must share to lie in one row window: opcode, mode, FP policy, K range and the stationary operand, by what its record says (R113). -/
def packKey (d : List Byte) (l : Layout) : List Nat × List Byte :=
  ([dOp d, if dOp d = 2 then 0 else dNum d 0x66 1, pKExt d, pNExt d, if pSform d then 1 + pW d else 0], if pSform d then [] else l.raw)

/-- The command as it starts, with everything it latches: register fields, GEN of its groups (R150), records, its output record (R302), its
tiles dealt to lanes (R122), whether it hands tiles off (R213). -/
def startedState (s : State) (q seq : Nat) (d : List Byte) (bell : Nat) : Cmd :=
  let c := newCmd s (q * 2 ^ 32 + seq) d bell
  let c := { c with
    gens := (writtenGroups d ++ wholeReads d).map (fun g => (g, (groupOf s g).gen))
    items := if isProduct d then dealItems s d else []
    outRec := if isProduct d && pStores d then outRecord s d else 0
    recs := readRecs s d
    guard := guardOf s q seq d }
  { c with hoff := hoffConditions s c }

/-- A staging command of the next step opens the epoch's STAGING (R286). -/
def stageEpoch (s : State) (d : List Byte) : State :=
  if isStaging d && dStep d == nextStep s && s.epoch.state == .stable then { s with epoch := { s.epoch with state := .staging } } else s

/-- The rows of the tiles of a shard in an array that holds them one after the other, `e` bytes an entry, from tile `t0` on (R259, R274). -/
def tileRuns (j : Job) (a e t0 : Nat) (ts : List Nat) : List Range :=
  ts.flatMap (fun t => let x := tileExtent j.rows j.cols t
    (List.range x.1).map (fun r => (a + (t - t0) * 65536 * e + r * 256 * e, x.2 * e)))

/-- What a SEND reads before its effect: peer entries and the committed residuals (R248, R255, R256); PARAMS reads when its turn has come. -/
def sendReads (s : State) (c : Cmd) : List Range :=
  let j := jobOf s c
  let d := c.desc
  let all := residualAddr j s.epoch.parity 0 0
  match rsMode d with
  | 0 => (j.peers, 8 * j.shards) :: (if j.res = 0 then [] else if rsEmpty d then [(all, j.tiles * 524288)]
      else if rsRzero d then [] else tileRuns j all 8 0 (List.range j.tiles))
  | 1 => []
  | _ => [(j.peers + 8 * rsPeer d, 8)]

/-- What an APPLY reads before its effect: the committed master weights and moments of its shard; COPY also the live working copy (R279, R282). -/
def applyReads (s : State) (c : Cmd) : List Range :=
  let j := applyJob s c
  let p := paramOf s c
  let opt := apOpt c.desc
  let both := fun (a : Nat × Nat) => a.1 != 0 && a.2 != 0
  let arrs := if opt = 4 then p.w :: ([p.m, p.v].filter both) else [p.w] ++ (if usesM opt then [p.m] else []) ++ (if usesV opt then [p.v] else [])
  arrs.flatMap (fun a => tileRuns j (copyOf a s.epoch.parity) 4 (shardFirst j j.mine) (shardTiles j j.mine)) ++
    (if opt = 4 then operandRuns s (layoutAt s (j.wrec s.epoch.parity)) 0 j.rows 0 j.cols else [])

/-- The ranges a command reads before its effect; products, LOADW, GATHER and SCATTER ask for their own as they go. -/
def unitReads (s : State) (c : Cmd) : List Range :=
  let d := c.desc
  if isProduct d || zeroRows d || dOp d = 0x01 || dOp d = 0x18 || dOp d = 0x19 then []
  else if dOp d = 0x20 then sendReads s c
  else if dOp d = 0x22 then applyReads s c
  else if dOp d = 0x29 then (if snAddr d = 0 then [] else [(snAddr d, 128)])
  else ((otherFoot s (startLayout s) d).reads ++ tagRange d).filter (fun r => 0 < r.2)

/-- A command with nothing but its latches and its guard: what a refused or dropped one leaves. -/
def bareCmd (s : State) (q : Nat) (f : Fetched) (d : List Byte) : Cmd :=
  { newCmd s (q * 2 ^ 32 + f.seq) d f.bell with guard := guardOf s q f.seq d }

/-- The W arrays a frozen PAIR holds no adapter tile for are released with its start (R138). -/
def releaseAtStart (s : State) (c : Cmd) : State :=
  if pFrozen c.desc then
    (lanes s (pSingles c.desc)).foldl (fun s l =>
      if !l.single && c.items.any (fun i => i.array == l.d) && c.items.all (fun i => !(i.kind == .db && i.array == l.w)) then
        bump s (corReleasedCount l.core) 1 else s) s
  else s

/-- The start of a command that has passed the check of its opcode: counted, traced, checked, handed to its unit. -/
def startCmd (s : State) (q : Nat) (f : Fetched) (d : List Byte) : State :=
  let key := q * 2 ^ 32 + f.seq
  let c0 := bareCmd s q f d
  let m := meetDamage s (fun x => x.cls == 10) (some c0)
  let s := trace (bump m.1 cmdStartedCount 1) 0 (dOp d) q (classOf s q) f.seq (dStamp d + dStep d * 2 ^ 32) (dTag d)
  if m.2 then pushCmd s q (epochMark s (refusedCmd c0 stFault 0))
  else
    let v := recView s f
    match commandFail v (classOf s q) f.recFail d with
    | some x => pushCmd s q (epochMark s (refusedCmd c0 x.1 x.2))
    | none =>
      if zeroRows d then pushCmd s q (endedCmd c0 stOK flEmpty 0)
      else
        let c0 := startedState v q f.seq d f.bell
        let allowed := dOp d == 0x28 && colocated s d
        let c := if allowed then { c0 with aux := [(auxOverride, 1)] }
          else if dOp d = 0x07 && gclearOpen? d then { c0 with aux := tput 0 [] 0 (openHome s d) } else c0
        let s := noteBegin (stageEpoch (pushCmd s q c) d) c
        let s := if allowed then noteOverride s d (some c) else s
        powerMove (askReads (releaseAtStart s c) key 7 0 (unitReads s c))

/-- Whether the head command of a queue joins the row window of `e`, which holds `n` rows so far (R113). -/
def joins (s : State) (q : Nat) (e : Cmd) (n : Nat) (f : Fetched) : Bool :=
  match f.desc with
  | none => false
  | some d =>
    let v := recView s f
    packable d && !f.failed && !(recordsWait s q f.seq) && (missingRecs s (classOf s q) f).isEmpty && 0 < pM d && n + pM d ≤ 256 &&
      (latchNow s).policy == e.lat.policy && packKey d (startLayout v (pW d)) == packKey e.desc (layoutAt s (pW e.desc)) &&
      waitCause v q (failsAlone v q f.recFail d) d == 0 && (commandFail v (classOf s q) f.recFail d).isNone

/-- The commands behind `e` in its queue that lie in one row window with it start with it: the keys and first rows of the window so far (R113). -/
def startJoined (q : Nat) (e : Cmd) : Nat → State × List (Nat × Nat) × Nat → State × List (Nat × Nat) × Nat
  | 0, a => a
  | fuel + 1, (s, l, n) =>
    match (queueOf s q).fetched with
    | [] => (s, l, n)
    | f :: _ =>
      let d := (f.desc).getD []
      if joins s q e n f then
        let t := startCmd s q f d
        if (findCmd t (q * 2 ^ 32 + f.seq)).any (fun c => c.phase == .started) then
          startJoined q e fuel (t, l ++ [(q * 2 ^ 32 + f.seq, n)], n + pM d)
        else (t, l, n)
      else (s, l, n)

/-- The fetched commands behind a descriptor `d` that may lie in one row window with it, by their descriptors alone; `n` rows are taken (R113). -/
def followers (d : List Byte) : List Fetched → Nat → List Fetched
  | [], _ => []
  | f :: l, n => match f.desc with
    | some e =>
      if packable e && !f.failed && !(dWait e) && dOp e == dOp d && pKExt e == pKExt d && pNExt e == pNExt d && n + pM e ≤ 256 then
        f :: followers d l (n + pM e)
      else []
    | none => []

/-- Form the row window of a command that has just started; COR.PACKED counts it on the core of its first lane (R113, R116; DESIGN CHOICE, log 74). -/
def packCmd (s : State) (q : Nat) (key : Nat) : State :=
  match findCmd s key with
  | none => s
  | some e =>
    if packable e.desc && e.phase == .started then
      let a := startJoined q e 16 (s, [(key, 0)], pM e.desc)
      if a.2.1.length < 2 then a.1
      else
        let keys := a.2.1.map (·.1)
        bump (a.2.1.foldl (fun s x => modCmd s x.1 (fun c => { c with packed := true, pack := keys, window := x.2 })) a.1)
          (corPackedCount (((lanes s (pSingles e.desc)).head?.map (·.core)).getD 0)) 1
    else s

/-- The head command of a DRAINING queue, or one whose fetch failed, completes without starting (R297, R318). -/
def dropHead (s : State) (q : Nat) (f : Fetched) : State :=
  pushCmd s q (epochMark s (refusedCmd (bareCmd s q f ((f.desc).getD [])) (if f.failed then stMportError else stFlushed) 0))

/-- COMMAND_START: the head command of the queue starts when nothing keeps it (R307), with those fetched behind it that share its row window, whose
records are read first (R113; DEDUCED, log 74). -/
def execCommandStart (q : BitVec 4) (s : State) : Host.Outcome State Fault Refusal :=
  let q := q.toNat
  match (queueOf s q).fetched with
  | [] => .next s
  | f :: _ =>
    let st := (queueOf s q).state
    if !(unitsRun s) || (f.desc.isNone && !f.failed) || recordsWait s q f.seq || !(st == .running || st == .draining) then .next s
    else if st == .draining || f.failed then .next (settle s (dropHead s q f))
    else if !((missingRecs s (classOf s q) f).isEmpty) then .next (settle s (askRecords s q f))
    else
      let d := (f.desc).getD []
      let v := recView s f
      if waitCause v q (failsAlone v q f.recFail d) d != 0 then .next s
      else if !(opcodes.contains (dOp d)) then
        .next (settle s (pushCmd s q (refusedCmd (bareCmd s q f d) stBadOpcode 0)))
      else
        let ms := if packable d && (commandFail v (classOf s q) f.recFail d).isNone then followers d ((queueOf s q).fetched.drop 1) (pM d) else []
        if ms.any (fun m => recordsWait s q m.seq) then .next s
        else if ms.any (fun m => !((missingRecs s (classOf s q) m).isEmpty)) then .next (settle s (ms.foldl (fun s m => askRecords s q m) s))
        else .next (settle s (packCmd (startCmd s q f d) q (q * 2 ^ 32 + f.seq)))

/-! ### NOP, FENCE, STAMP (R305, R306) -/

/-- NOP. -/
def execNop (r : CmdRef) (s : State) : Host.Outcome State Fault Refusal :=
  runUnit s (refKey r) (isOp 0x00) (fun s c => endCmd s c.key stOK 0 0)

/-- FENCE: begins its wait. -/
def execFence (r : CmdRef) (s : State) : Host.Outcome State Fault Refusal :=
  runUnit s (refKey r) (isOp 0x30) (fun s c => modCmd s c.key (fun c => { c with phase := .begun }))

/-- FENCE_TARGETS_REACHED. -/
def execFenceTargetsReached (r : CmdRef) (s : State) : Host.Outcome State Fault Refusal :=
  match findCmd s (refKey r) with
  | some c =>
    if unitsRun s && isOp 0x30 c && c.phase == .begun && fenceReached s c.desc then .next (settle s (endCmd s c.key stOK 0 0))
    else .next s
  | none => .next s

/-- STAMP: begins its wait. -/
def execStamp (r : CmdRef) (s : State) : Host.Outcome State Fault Refusal :=
  runUnit s (refKey r) (isOp 0x31) (fun s c => modCmd s c.key (fun c => { c with phase := .begun }))

/-- Whether every earlier command of the queue has completed. -/
def earlierDone (s : State) (c : Cmd) : Bool := s.cmds.all (fun e => !(e.q == c.q && serialLt e.seq c.seq))

/-- STAMP_WRITE: VALUE to ADDR as one 8-byte write. -/
def execStampWrite (r : CmdRef) (s : State) : Host.Outcome State Fault Refusal :=
  match findCmd s (refKey r) with
  | some c =>
    if unitsRun s && isOp 0x31 c && c.phase == .begun && earlierDone s c then
      let s1 := s.store (dNum c.desc 0x20 8) (natLE (dNum c.desc 0x28 8) 8)
      .next (settle s (awaitWrites (endCmd s1 c.key stOK 0 0) c.key 7))
    else .next s
  | none => .next s

/-! ### Completion records (R317 to R322) -/

/-- The 32 bytes of R319; PHASE of a fired SNAP is that of SEQ 0xFFFF_FFFF in any ring, 0 (DEDUCED, log 47). -/
def completionBytes (s : State) (c : Cmd) : List Byte :=
  let fired := c.key == firedKey
  let phase := if fired then 0 else 1 - bitsOf c.seq (rd s (queRingCtlSizeLog2 c.q)) 1
  natLE (now s) 8 ++ natLE (if fired then 0xFFFFFFFF else c.seq) 4 ++ natLE (dOp c.desc) 1 ++ natLE c.status 1 ++
    natLE ((if fired then 0 else c.q) + 128 * phase) 1 ++ natLE 0 1 ++ natLE c.flags 4 ++ natLE (dStamp c.desc) 4 ++
    natLE c.result 4 ++ natLE (dTag c.desc) 4

/-- Where the record goes; `none` for a fired SNAP without an address (R293, R334). -/
def completionAddr (s : State) (c : Cmd) : Option Nat :=
  if c.key = firedKey then (if rd s glbSnapCplAddr = 0 then none else some (rd s glbSnapCplAddr))
  else some (rd s (queCplBaseAddr c.q) + c.seq % ringSize s c.q * 32)

/-- Whether the command's product folds the bound tile (R167). -/
def coversTile (s : State) (c : Cmd) (q stamp g t owner : Nat) : Bool :=
  q == c.q && stamp == dStamp c.desc && serialLt owner c.seq && (writtenGroups c.desc).contains g &&
    c.items.any (fun i => let f := itemFold s c.desc i; f.1 == g && f.2.1 == t)

/-- The bindings of a command that completes are released; a preload it has not used is counted (R167). -/
def releaseBindings (s : State) (c : Cmd) : State :=
  let pre := fun (p : Preload) => coversTile s c p.q p.stamp p.group p.tile p.owner
  let div := fun (x : Divert) => coversTile s c x.q x.stamp x.group x.tile x.owner
  bump { s with preloads := s.preloads.filter (fun p => !(pre p)), diverts := s.diverts.filter (fun x => !(div x)) }
    scrPreloadUnusedCount (s.preloads.filter pre).length

/-- The CMD_DONE record (R435). -/
def doneTrace (s : State) (c : Cmd) : State :=
  let fired := c.key == firedKey
  trace s 1 (dOp c.desc) (if fired then 0xFF else c.q) c.status (if fired then 0xFFFFFFFF else c.seq)
    (c.flags + c.result * 2 ^ 32) (dTag c.desc)

/-- UPD.COMMIT_TIME takes the timestamp of the record of a COMMIT that flipped the epoch (R287 step 7). -/
def commitTime (s : State) (c : Cmd) : State :=
  if dOp c.desc = 0x23 ∧ c.status = stOK then { s with epoch := { s.epoch with time := now s } } else s

/-- What the end of a command leaves in the engine when it completes. -/
def completeEffects (s : State) (c : Cmd) : State :=
  markReduced (commitTime (stagedDone (advMerge (releaseBindings s c) c) c) c) c

/-- The fired SNAP is over: SNAP_ARM is IDLE and LAST holds its status (R334, R342). -/
def firedDone (s : State) (status : Nat) : State :=
  wr (wr { s with snap := snapReset, cmds := s.cmds.filter (fun c => c.key != firedKey), staged := s.staged.filter (fun e => e.key != firedKey) }
    glbSnapArmLast status) glbSnapArmOverridden 0

/-- Whether the record may be written: the command has ended, its writes are acknowledged, its hand-off records written, and for a command of a
queue every earlier record is (R317). -/
def mayComplete (s : State) (c : Cmd) : Bool :=
  c.phase == .ended && !(writesPending s c.key) && s.handoffs.all (fun h => h.key != c.key) &&
    (c.key == firedKey || c.seq == rd s (queRetiredCount c.q))

/-- Create and write the record. -/
def writeCompletion (s : State) (c : Cmd) : State :=
  let s1 := doneTrace (completeEffects s c) c
  match completionAddr s c with
  | some a =>
    let s2 := { modCmd (s1.store a (completionBytes s c)) c.key (fun c => { c with phase := .recorded }) with
      staged := s1.staged.filter (fun e => e.key != c.key) }
    issue s2 true true a 32 (.completion c.key)
  | none => firedDone s1 c.status

/-- COMPLETION_RECORD. -/
def execCompletionRecord (r : DoneRef) (s : State) : Host.Outcome State Fault Refusal :=
  match findCmd s (doneKey r) with
  | some c =>
    if unitsRun s && mayComplete s c && (completionAddr s c).all (fun a => reservedFree s (mportOf a) false) then
      .next (settle s (writeCompletion s c))
    else .next s
  | none => .next s

/-- RETIRED passes the record; an error status may halt the queue (R297, R317, R318). `bad` says that the write of the record failed. -/
def retire (s : State) (c : Cmd) (bad : Bool) : State :=
  let q := c.q
  let s1 := { s with cmds := s.cmds.filter (fun e => e.key != c.key) }
  let s2 := wr s1 (queRetiredCount q) (rd s1 (queRetiredCount q) + 1)
  let s3 := setEvtIf (!bad && (dIrq c.desc || rd s (queRingCtlIrqAll q) == 1)) s2 (evCpl q)
  let running := (queueOf s q).state == .running
  let s4 :=
    if bad then
      (if running then haltQueue s3 q c.seq stMportError
        else if (queueOf s q).state == .draining then wr (wr s3 (queErrSeq q) c.seq) (queErrStatus q) stMportError else s3)
    else if running && c.status != stOK && rd s (queRingCtlStopOnErr q) == 1 then haltQueue s3 q c.seq c.status
    else s3
  drained s4 q

/-- The answer to a completion-record write. -/
def completionAck (s : State) (key : Nat) (bad : Bool) : State :=
  match findCmd s key with
  | some c => if key = firedKey then firedDone s c.status else retire s c bad
  | none => s

end Sys2Proof.Machine
end

