-- ==== Sys2Proof/Machine/Port.lean ====
section
/-! DEFINITION. The ports (16 R378 to R403): M-port responses, F-port transmit status, the time base, C-port writes, resets and power. -/

namespace Sys2Proof.Machine

/-! ### M-port responses (R386, R389) -/

/-- The response as the engine takes it: OK, ERROR or POISON; POISON to a write and the reserved status count as ERROR (R389). -/
def responseKind (r : MReq) (st : MStatus) : MStatus :=
  match st with
  | .ok => .ok
  | .error => .error
  | .poison => if r.write then .error else .poison
  | .reserved => .error

/-- Whether the response breaks the protocol (R389). -/
def responseBreaks (r : MReq) (st : MStatus) : Bool :=
  match st with
  | .poison => r.write
  | .reserved => true
  | _ => false

/-- The address an error names: the first poisoned sector of the granule, or the access's own (R196, R389). -/
def failAddr (r : MReq) (poison : Bool) (mask : Nat) : Nat :=
  if poison then
    match (List.range 16).find? (bitOf mask) with
    | some i => r.addr / 1024 * 1024 + 64 * i
    | none => r.addr
  else r.addr

/-- The loader of an access, 7 for one that no Trowel loader made (R197), and the command it is for. -/
def requestLoader (r : MReq) : Nat :=
  match r.why with
  | .cmdRead _ core _ => if core < 6 then core else 7
  | .cmdWrite _ core => if core < 6 then core else 7
  | _ => 7

def requestKey (r : MReq) : Option Nat :=
  match r.why with
  | .descriptor q seq => some (q * 2 ^ 32 + seq)
  | .record q seq _ => some (q * 2 ^ 32 + seq)
  | .completion key => some key
  | .cmdRead key _ _ => some key
  | .cmdWrite key _ => some key
  | .handoff key => some key
  | .snapDesc => none
  | .snapRecord => none

/-- Whether the access is the command processor's own (R318). -/
def requestOwn (r : MReq) : Bool :=
  match r.why with
  | .descriptor _ _ => true
  | .record _ _ _ => true
  | .completion _ => true
  | .snapDesc => true
  | .snapRecord => true
  | _ => false

/-- TRW.MPORT_ERR and ERR_ADDR: the count, and the first error since the last clear (R196, R197). -/
def countError (s : State) (r : MReq) (addr : Nat) : State :=
  let s1 := if rd s trwMportErrCount = 0 then
      wr (wr (wr (wr s trwMportErrPort r.port) trwMportErrLoader (requestLoader r)) trwMportErrWrite (if r.write then 1 else 0)) trwErrAddrAddr addr
    else s
  setEvt (bump s1 trwMportErrCount 1) evMportErr

/-- QUEUE and SEQ of the command an access is for, as a log record has them (R372). -/
def requestWho (r : MReq) : Nat × Nat :=
  match requestKey r with
  | some k => if k < firedKey then (k / 2 ^ 32, k % 2 ^ 32) else (0xFF, 0xFFFFFFFF)
  | none => (0xFF, 0)

/-- The class-12 record of a POISON response, and of an ERROR on the command processor's own accesses (R318, R367, R389). -/
def logError (s : State) (r : MReq) (poison : Bool) (addr : Nat) : State :=
  if poison || requestOwn r then
    let who := requestWho r
    logPut (ueCount s 12) ⟨if poison then 4 else 2, 12, 0, r.port, 0, addr, 0, who.1, 0xFF, who.2⟩
  else s

/-- Change a fetched descriptor of a queue. -/
def modFetched (s : State) (q seq : Nat) (f : Fetched → Fetched) : State :=
  let x := queueOf s q
  setQueue s q { x with fetched := x.fetched.map (fun e => if e.seq == seq then f e else e) }

/-- Read what the records at hand lead to, once none is outstanding (R176, R300). -/
def nextRecords (s : State) (q seq : Nat) : State :=
  match (queueOf s q).fetched.find? (fun e => e.seq == seq) with
  | some f => if recordsWait s q seq then s else askRecords s q f
  | none => s

/-- A descriptor has arrived; the records it names are read (R296, R300). -/
def descArrived (s : State) (q seq addr : Nat) : State :=
  nextRecords (modFetched s q seq (fun e => { e with desc := some (s.bytes addr 128) })) q seq

/-- The layout records of a fetched command whose bytes are complete come into the cache (R176). -/
def cacheFetched (s : State) (q seq : Nat) : State :=
  match (queueOf s q).fetched.find? (fun e => e.seq == seq) with
  | none => s
  | some f =>
    ((recordNeeds s f ((f.desc).getD [])).filter (fun n => n.2.2.2 && recKnown s f n)).foldl (fun s n =>
      cacheRecord s n.2.1 ((recView s f).bytes n.2.1 64)) s

/-- Bytes of a record have arrived. -/
def recordArrived (s : State) (q seq : Nat) (cells : List Host.Cell) : State :=
  nextRecords (cacheFetched (modFetched s q seq (fun e => { e with recs := cells.foldl (fun l p => tins l p.1 p.2) e.recs })) q seq) q seq

/-- Whether a command that awaits reads or writes may still take an error. -/
def takesErr (c : Cmd) : Bool := c.phase == .started || c.phase == .begun

/-- A read of a command failed: its part fails (R196). -/
def readFailed (s : State) (key core : Nat) : State :=
  match findCmd s key with
  | some c => if isProduct c.desc then failPart s c core stMportError
    else modCmd s key (fun c => if takesErr c then noteErr c core stMportError else c)
  | none => s

/-- A write of an ended command failed: its status rises, the groups it wrote are TORN, the rows of the last window of a SCATTER ACCUM to memory
are undefined and RESULT names it (R196, R243, R322). -/
def endedFailed (s : State) (c : Cmd) : State :=
  let s1 := tearWritten (dropHandoffs s c.key) c
  if dOp c.desc = 0x19 && gAccum c.desc && !(gToGroup c.desc) then
    modCmd (scaUndefined s1 c (c.window - 1)) c.key (fun c => { c with status := max c.status stMportError, result := c.window - 1 })
  else modCmd s1 c.key (fun c => { c with status := max c.status stMportError })

/-- A write of a command failed (R196, R339). -/
def writeFailed (s : State) (key core : Nat) : State :=
  match findCmd s key with
  | some c =>
    if dOp c.desc = 0x29 && c.phase == .begun then restoreBroken s c stMportError
    else if isProduct c.desc && c.phase == .started then failPart s c core stMportError
    else if takesErr c then modCmd s key (fun c => noteErr c core stMportError)
    else if c.phase == .ended then endedFailed s c
    else s
  | none => s

/-- A write of a command was answered OK; the last one of a RESTORE ends it (R317, R339). -/
def writeDone (s : State) (key : Nat) : State :=
  match findCmd s key with
  | some c => if dOp c.desc = 0x29 && c.phase == .begun && !(writesPending s key) then restoreFinish s c else s
  | none => s

/-- The bytes of a response for the runs its request covers; bytes it does not hold are 0. -/
def responseCells (r : MReq) (data : List Byte) : List Host.Cell :=
  r.strobes.flatMap (fun x => (List.range x.2).map (fun i => (x.1 + i, (data[x.1 + i - r.addr]?).getD 0#8)))

/-- What a good response does. The bytes read are what memory holds there (log 21); a command's unit holds them from then on. -/
def responseOk (s : State) (r : MReq) (data : List Byte) : State :=
  let cells := responseCells r data
  let held := cells.foldl (fun s p => s.putByte p.1 p.2) s
  match r.why with
  | .descriptor q seq => descArrived held q seq r.addr
  | .record q seq _ => recordArrived held q seq cells
  | .snapDesc => armNext { held with snap := { held.snap with desc := held.bytes r.addr 128 } }
  | .snapRecord => armNext { s with snap := { s.snap with recs := cells.foldl (fun l p => tins l p.1 p.2) s.snap.recs } }
  | .cmdRead key core part => if (findCmd s key).isSome then rowsArrived (partArrived held key core part cells) key else s
  | .cmdWrite key _ => writeDone s key
  | .handoff _ => handoffDone s
  | .completion key => completionAck s key false

/-- What a bad response does (R196, R318, R334). -/
def responseBad (s : State) (r : MReq) : State :=
  match r.why with
  | .descriptor q seq => modFetched s q seq (fun e => { e with failed := true })
  | .record q seq off => nextRecords (modFetched s q seq (fun e => { e with recFail := e.recFail ++ [off] })) q seq
  | .snapDesc => armFailed s stMportError
  | .snapRecord => armNext { s with snap := { s.snap with failed := true } }
  | .cmdRead key core _ => readFailed s key core
  | .cmdWrite key core => writeFailed s key core
  | .handoff key => writeFailed s key 7
  | .completion key => completionAck s key true

/-- Whether a response comes too late to matter: its command has aborted or gone, or has dropped the block at a fault or its preemption (R403). -/
def discarded (s : State) (r : MReq) : Bool :=
  match r.why with
  | .cmdRead key core part => match findCmd s key with
    | some c => !(takesErr c) || (isProduct c.desc && core < 7 && !(s.staged.any (fun e => e.key == key && e.core == core && e.part == part)))
    | none => true
  | _ => false

/-- A response to an outstanding request; the credit it frees lets a waiting request out (R386). A late one is accepted and discarded (R403). -/
def respond (s : State) (r : MReq) (st : MStatus) (mask : Nat) (data : List Byte) : State :=
  let s1 := setEvtIf (responseBreaks r st) { s with mreqs := s.mreqs.erase r } evPortProto
  if discarded s r then pump s1
  else match responseKind r st with
  | .ok => pump (responseOk s1 r data)
  | k =>
    let a := failAddr r (k == .poison) mask
    pump (responseBad ((if r.write then r.strobes else []).foldl freeRun (logError (countError s1 r a) r (k == .poison) a)) r)

/-- MPORT_RESPONSE (R386, R389): one with an unknown tag is discarded. -/
def execMportResponse (port : BitVec 4) (tag : BitVec 10) (st : MStatus) (poison : BitVec 16) (data : List Byte) (s : State) :
    Host.Outcome State Fault Refusal :=
  if awake s && portClock s then
    match s.mreqs.find? (fun r => r.port == port.toNat && r.tag == tag.toNat) with
    | none => .next (settle s (setEvt s evPortProto))
    | some r => .next (settle s (respond s r st poison.toNat data))
  else .next s

/-! ### Transmit status (R392) -/

/-- What a status does to its packet's number. -/
def markSent (s : State) (t : TxPacket) (error : Bool) : State :=
  { s with txState := s.txState.map (fun x =>
      if x.key == t.key && x.num == t.num then { x with copies := x.copies - 1, done := x.done || !error } else x) }

/-- Whether this status is the first DONE of a packet that is the last of a contribution (R435). -/
def contribSent (s : State) (t : TxPacket) (error : Bool) : Bool :=
  !error && t.vc == 1 && bitOf (hFlags t.bytes) 1 && s.txState.any (fun x => x.key == t.key && x.num == t.num && !x.done)

/-- An ERROR status: RSU.FPORT_ERR. -/
def countPortErr (s : State) (port : Nat) : State :=
  bump (if rd s rsuFportErrCount = 0 then wr s rsuFportErrPort port else s) rsuFportErrCount 1

/-- End a SEND or SNAP whose packets all have their status (R332, R392). -/
def sentAll (s : State) (key : Nat) : State :=
  match findCmd s key with
  | some c =>
    if c.phase == .begun && txSettled s key then
      if dOp c.desc = 0x20 then sendFinish s c else if dOp c.desc = 0x28 then snapFinish s c else s
    else s
  | none => s

/-- The status of an awaited packet. -/
def packetStatus (s : State) (t : TxPacket) (error : Bool) : State :=
  let s0 := { s with txAwait := s.txAwait.erase t }
  let s1 := if contribSent s0 t error then contribTrace s0 0 (hDigest t.bytes) t.bytes else s0
  let s2 := if error then countPortErr s1 t.port else s1
  sentAll (markSent s2 t error) t.key

/-- FPORT_STATUS (R392): an unknown PID is discarded and sets PORT_PROTO, but for 4,096 port cycles after a WRST_N that lost packets (R403). -/
def execFportStatus (port : BitVec 2) (pid : BitVec 12) (error : Bool) (s : State) : Host.Outcome State Fault Refusal :=
  if awake s && portClock s then
    match s.txAwait.find? (fun t => t.port == port.toNat && t.pid == pid.toNat) with
    | some t => .next (settle s (packetStatus s t error))
    | none => .next (settle s (setEvtIf (s.quiet == 0) s evPortProto))
  else .next s

/-! ### Time base (R401, R402) -/

/-- TB_VALID_CHANGE; the input is followed under a reset too. -/
def execTbValidChange (valid : Bool) (s : State) : Host.Outcome State Fault Refusal :=
  let s1 := wr { s with tb := { s.tb with valid := valid } } glbTbStatValid (if valid then 1 else 0)
  .next (settle s (setEvtIf (awake s && !valid) s1 evTbLost))

/-- TB_STEP: the time base steps backward; the largest value issued is kept. -/
def execTbStep (time : BitVec 64) (s : State) : Host.Outcome State Fault Refusal :=
  if s.tb.valid && time.toNat < s.tb.time then
    let s1 := { s with tb := { s.tb with time := time.toNat } }
    .next (settle s (if awake s then setEvt (bump s1 glbTbStatSteps 1) evTbStep else s1))
  else .next s

/-! ### C-port (R396, R398, R433) -/

/-- INTERRUPT_MESSAGE: the oldest waiting message is sent. -/
def execInterruptMessage (s : State) : Host.Outcome State Fault Refusal :=
  match s.cport with
  | [] => .next s
  | m :: rest =>
    if awake s && portClock s then
      .next (settle s ((bump { s with cport := rest } glbIrqStatMsgs 1).store m.addr (natLE m.word 8)))
    else .next s

/-- The entry of the trace ring that the next record goes to (R433). -/
def traceEntry (s : State) : Nat := rd s trcRingBaseAddr + rd s trcHeadCount % 2 ^ rd s trcRingCtlSizeLog2 * 32

/-- TRACE_RECORD_WRITE. -/
def execTraceRecordWrite (s : State) : Host.Outcome State Fault Refusal :=
  match s.trace with
  | [] => .next s
  | b :: rest =>
    if awake s && portClock s then
      let s1 := wr { s with trace := rest } trcHeadCount (rd s trcHeadCount + 1)
      .next (settle s (s1.store (traceEntry s) b))
    else .next s

/-! ### Resets and power (R344, R379 to R381) -/

/-- What every reset leaves: the reset state beside what is not the engine's to lose: the commands outside, memory behind the ports, the
arrays' defects, the test wrapper, the inputs' levels (R379, R406). -/
def resetTo (s : State) : State :=
  let x := { State.reset with
    pending := s.pending, mem := s.mem, sts := [], arrFail := s.arrFail, test := s.test, tb := ⟨s.tb.time, s.tb.valid, 0⟩
    power := { powerReset with ack := s.power.ack }, rstLow := s.rstLow, wrstLow := s.wrstLow, free := s.free }
  wr (wr x glbTbStatValid (if s.tb.valid then 1 else 0)) pwrBudgetHost (rd s pwrBudgetHost)

/-- RST_N asserted; a disturbance by a test-port instruction ends (R420). -/
def rstAssert (s : State) : State := { resetTo s with rstLow := true, test := { s.test with disturbed := false } }

/-- The fields WRST_N leaves unchanged (R380). -/
def wrstKept : List Field := [rasLogHeadCount, rasLogTailCount, rasLogLostCe, rasLogLostUe, rasArrFailArrays]

/-- WRST_N asserted (R380, R403, R432). -/
def wrstAssert (s : State) : State :=
  let x := wrstKept.foldl (fun x f => wr x f (rd s f)) (resetTo s)
  let x := wr (wr x glbResetStatCause 1) glbResetStatWrsts (satAdd 16 (rd s glbResetStatWrsts) 1)
  { x with wrstLow := true, quiet := if s.txAwait.isEmpty then s.quiet else 4096
           ras := { rasReset with log := s.ras.log, buckets := s.ras.buckets, banks := s.ras.banks } }

/-- Sample the straps (R381). -/
def sampleStraps (s : State) (p : Straps) : State :=
  wr (wr s glbStrapsChipNum p.chipNum.toNat) glbStrapsFportPresent p.fports.toNat

/-- The last asserted reset is deasserted: the straps are sampled (R381). After a test-port instruction that disturbed the engine its functional
state is undefined, a free value (R420). -/
def resetEnd (s : State) (p : Straps) : State :=
  if s.test.disturbed then
    { Config.functionalState s.free with
      pending := s.pending, mem := s.mem, wbuf := [], arrFail := s.arrFail, test := s.test, rstLow := false, wrstLow := false }
  else sampleStraps s p

/-- RST_N (R379): also the return of power (R344). -/
def execRstN (asserted : Bool) (p : Straps) (s : State) : Host.Outcome State Fault Refusal :=
  if asserted then (if s.rstLow then .next s else .next (settle s (rstAssert s)))
  else if s.rstLow then
    let s1 := { s with rstLow := false }
    .next (settle s (if s.wrstLow then s1 else resetEnd s1 p))
  else .next s

/-- WRST_N (R379, R380). -/
def execWrstN (asserted : Bool) (p : Straps) (s : State) : Host.Outcome State Fault Refusal :=
  if s.power.state == .off then .next s
  else if asserted then
    if s.wrstLow then .next s
    else .next (settle s (if s.rstLow then { s with wrstLow := true } else wrstAssert s))
  else if s.wrstLow then
    let s1 := { s with wrstLow := false }
    .next (settle s (if s.rstLow then s1 else resetEnd s1 p))
  else .next s

/-- POWER_LOSS: OFF loses everything (R344). -/
def execPowerLoss (s : State) : Host.Outcome State Fault Refusal :=
  let x := resetTo s
  .next (settle s { x with rstLow := false, wrstLow := false, test := testReset, power := { x.power with state := .off } })

end Sys2Proof.Machine
end

