-- ==== Sys2Proof/Machine/Ras.lean ====
section
/-! DEFINITION. The RAS commands (15 R361 to R371): errors appearing, scrubbing, write-back, bucket leaks, majority repair, and an array
that fails in service (R112). -/

namespace Sys2Proof.Machine

/-- A damaged word at a site; two errors in one codeword make it a double-bit error (log 44). -/
def damageAt (s : State) (e : ErrSite) (double : Bool) : State :=
  let same := fun (d : Damage) => d.cls == e.cls.toNat && d.unit == e.unit.toNat && d.word == e.word.toNat
  let l := s.ras.damage
  let again := l.any same
  { s with ras := { s.ras with damage := l.filter (fun d => !(same d)) ++ [⟨e.cls.toNat, e.unit.toNat, e.word.toNat, double || again, false⟩] } }

/-- Whether a control memory's item is unwritten: it reads as its reset value and is never checked, and its first write stores fresh check bits
(R407; an item whose value is its reset value counts as unwritten, DESIGN CHOICE, log 44). -/
def unwritten (s : State) (e : ErrSite) : Bool :=
  match e.cls.toNat with
  | 2 => (tfind s.tiles e.word.toNat).isNone
  | 7 => (tfind s.ledger (e.word.toNat / 4)).isNone
  | 8 => match class8Record ⟨8, e.unit.toNat, e.word.toNat, false, false⟩ with
    | (1, i) => (tfind s.advisor i).isNone
    | (2, i) => if i < 256 then (tfind s.advisor i).isNone else (tfind s.statsSt (i - 256)).isNone
    | (_, i) => (tfind s.statsCom i).isNone
  | _ => false

/-- MEMORY_ERROR (R361, R362): a codeword of a class 0 to 10 is damaged, or one copy of a keep-domain register disagrees. Class 12 holds
no memory of the engine's own, and an error in an unwritten item is never seen (R407). -/
def execMemoryError (e : ErrSite) (double : Bool) (s : State) : Host.Outcome State Fault Refusal :=
  let cls := e.cls.toNat
  if s.power.state == .off || 12 ≤ cls || unwritten s e then .next s
  else if cls = 11 then
    .next (settle s { s with ras := { s.ras with keepBad := s.ras.keepBad ++ [(e.unit.toNat, e.word.toNat)] } })
  else .next (settle s (damageAt s e double))

/-- ARRAY_FAILURE (R112): the array stays in the live map; what meets its failure aborts. -/
def execArrayFailure (a : BitVec 5) (s : State) : Host.Outcome State Fault Refusal :=
  if a.toNat < 24 && !(s.arrFail.contains a.toNat) then .next (settle s { s with arrFail := s.arrFail ++ [a.toNat] }) else .next s

/-- The number of words the scrubber visits in a memory of a class before it starts again. -/
def scrubSpan (cls : Nat) : Nat :=
  match cls with
  | 0 => 4096 | 1 => 4096 | 3 => 8192 | 4 => 2 ^ 17 | 5 => 2 ^ 17 | 6 => 4096 | 7 => 2 ^ 14 | 8 => 2 ^ 14
  | _ => 2 ^ 20

/-- The access of a pass that covers a word: a frame row, a line, or the word itself (R370). -/
def scrubPlace (d : Damage) : Nat :=
  match d.cls with
  | 0 => d.word / 256 | 1 => d.word / 4
  | _ => d.word

/-- Whether the scrubber checks the word at all (R369). -/
def scrubChecks (s : State) (d : Damage) : Bool :=
  match d.cls with
  | 0 => match damageRow s d with
    | some (f, r) => (frameTile s f).isSome && (tfind (frameOf s f) (r * 256 + d.word % 256)).isSome
    | none => false
  | 4 =>
    let ar := arrayOf s d.unit
    !ar.on && (if d.word / 65536 % 2 = 0 then ar.planeA else ar.planeB).state != .free
  | 5 => !(arrayOf s d.unit).on
  | c => c ≤ 8

/-- An error the scrubber finds: as on use; a running user of a stage buffer or a transit buffer fails (R369). -/
def scrubHit (s : State) (d : Damage) : State :=
  let r := takeError s d none
  if r.2 && (d.cls = 3 || d.cls = 6) then
    (r.1.cmds.filter (fun c => isProduct c.desc && c.phase == .started && c.items.any (fun i => i.st != .done && arrayDamage i.array false d))).foldl
      (fun s c => failPart s c (damageCore d) stFault) r.1
  else r.1

/-- SCRUB_ACCESS (R369 to R371): one access in every memory. -/
def execScrubAccess (s : State) : Host.Outcome State Fault Refusal :=
  if portClock s && rd s rasScrubCtlEnable == 1 then
    let p := s.ras.scrub
    let hits := s.ras.damage.filter (fun d => !d.back && scrubChecks s d && scrubPlace d % scrubSpan d.cls == p % scrubSpan d.cls)
    let s1 := hits.foldl scrubHit s
    let s2 := { s1 with ras := { s1.ras with scrub := (p + 1) % 2 ^ 20 } }
    .next (settle s (if (p + 1) % 4096 = 0 then bump s2 rasScrubStatPasses 1 else s2))
  else .next s

/-- CORRECTION_WRITE_BACK (R363): the oldest corrected word waiting is written; a newer write has already removed its damage. -/
def execCorrectionWriteBack (s : State) : Host.Outcome State Fault Refusal :=
  match s.ras.damage.find? (·.back) with
  | some d =>
    if portClock s then .next (settle s { s with ras := { s.ras with damage := s.ras.damage.erase d } }) else .next s
  | none => .next s

/-- BUCKET_LEAK (R368): the leak timer's keep cycle. -/
def execBucketLeak (s : State) : Host.Outcome State Fault Refusal :=
  if s.power.state == .off then .next s
  else .next (settle s (s.ras.buckets.foldr (fun p s => setBucket s p.1 { p.2 with level := p.2.level - 1 }) s))

/-- KEEP_MAJORITY_REPAIR (R362). -/
def execKeepMajorityRepair (s : State) : Host.Outcome State Fault Refusal :=
  match s.ras.keepBad with
  | [] => .next s
  | k :: rest =>
    let s1 := { s with ras := { s.ras with keepBad := rest } }
    .next (settle s (bucketAdd (logPut s1 ⟨1, 11, 1, 0xFF, k.2, 0, 0, 0xFF, 0xFF, 0⟩) 11))

end Sys2Proof.Machine
end

