-- ==== Sys2Proof/Machine/Views.lean ====
section
/-! DEFINITION. What the register fields that report the engine's state read as (R116, R142, R170, R197, R245, R246, R271, R292, R324, R325,
R342, R360, R377, R405, R422, R426, R428, R438), and the value a read returns. -/

namespace Sys2Proof.Machine

/-- A field's value placed in its register. -/
def fieldVal (f : Field) (v : Nat) : Nat := placed v f.lo f.width

/-- Whether a command of these opcodes is with its unit. -/
def opRuns (s : State) (ops : List Nat) : Bool := s.cmds.any (fun c => ops.contains (dOp c.desc) && (c.phase == .started || c.phase == .begun))

/-! ### GLB, CMD, PWR, RAS -/

def armCode : ArmState → Nat
  | .idle => 0 | .arming => 1 | .armed => 2 | .running => 3

def viewGlb (s : State) (off : Nat) : Nat :=
  match off with
  | 0x118 => fieldVal glbSnapArmState (armCode s.snap.state)
  | 0x168 => fieldVal glbIrqStatSummary ((List.range 4).foldl (fun n v => n + if vecSummary s v then 2 ^ v else 0) 0)
  | 0x178 => now s
  | _ => 0

/-- Whether a command of class `cls` is saved. -/
def classSaved (s : State) (cls : Nat) : Bool := s.cmds.any (fun c => c.saved && c.key < firedKey && classOf s c.q == cls)

/-- Commands started and not completed (R324). -/
def runningCount (s : State) : Nat := (s.cmds.filter startedCmd).length

def viewCmd (s : State) (off : Nat) : Nat :=
  match off with
  | 0x120 => fieldVal cmdRunningCount (runningCount s) +
      fieldVal cmdRunningSaved ((if classSaved s 3 then 1 else 0) + if classSaved s 2 then 2 else 0)
  | _ => 0

/-- The ramp levels of arrays `first` on, 4 bits each; 0xF while gated (R360). -/
def levelWord (s : State) (first n : Nat) : Nat :=
  (List.range n).foldl (fun w i => w + (arrayOf s (first + i)).level % 16 * 2 ^ (4 * i)) 0

def viewPwr (s : State) (off : Nat) : Nat :=
  let b := fun (x : Bool) => if x then 1 else 0
  match off with
  | 0x108 => fieldVal pwrState (pstateCode s.power.state) + fieldVal pwrStateRestartPending (b s.power.restart) +
      fieldVal pwrStateKeepWait (b (target s == 0 && !(keepOk s))) + fieldVal pwrStateClkReq (b s.power.req) + fieldVal pwrStateClkAck (b s.power.ack)
  | 0x110 => fieldVal pwrBudgetEffective (budget s)
  | 0x120 => fieldVal pwrThrCtlEffective s.power.thrEff
  | 0x130 => levelWord s 0 16
  | 0x138 => levelWord s 16 8
  | _ => 0

/-- Eight bytes of the selected log record (R377). -/
def logWord (s : State) (i : Nat) : Nat := fieldAt ((tfind s.ras.log (rd s rasLogSelIndex)).getD []) (8 * i) 8

def viewRas (s : State) (off : Nat) : Nat :=
  match off with
  | 0x120 =>
    let b := bucketOf s (rd s rasClassSelClass)
    fieldVal rasClassStatLevel b.level + fieldVal rasClassStatCe b.ce + fieldVal rasClassStatUe b.ue + fieldVal rasClassStatOvf b.ovf
  | 0x150 => logWord s 0
  | 0x158 => logWord s 1
  | 0x160 => logWord s 2
  | 0x168 => logWord s 3
  | 0x178 =>
    let b := tget (0, 0) s.ras.banks (rd s rasBankSelBank)
    fieldVal rasBankCntCe b.1 + fieldVal rasBankCntUe b.2
  | _ => 0

/-! ### TST, LDG, FMT -/

/-- The running BIST's key and command. -/
def bistRunning (s : State) : Option Cmd := s.bist.key.bind (findCmd s)

/-- Nanoseconds of a logic self-test: 8,519,680 cycles of 375 MHz (R414). -/
def logicTime : Nat := 22719146

/-- BIST_STAT.STATE (R422); with KIND 3 the memory test follows once the logic test's time has passed. -/
def bistState (s : State) : Nat :=
  if s.bist.key.isSome then
    if s.bist.status = 2 && (bistRunning s).any (fun c => dNum c.desc 0x30 1 == 3 && tget 0 c.aux 0 + logicTime ≤ now s) then 3 else s.bist.status
  else if bistHeads s || s.cmds.any (fun c => dOp c.desc == 0x38 && c.phase == .started) then 1 else 0

def viewTst (s : State) (off : Nat) : Nat :=
  match off with
  | 0x100 => fieldVal tstBistStatState (bistState s)
  | 0x120 => tget 0 s.bist.misr (rd s tstMisrSelUnit)
  | 0x130 =>
    let m := tget (0, 0, 0) s.bist.mem (rd s tstMemSelUnit)
    fieldVal tstMemStatClass m.1 + fieldVal tstMemStatCount m.2.1 + fieldVal tstMemStatWord m.2.2
  | _ => 0

/-- The slots in a condition. -/
def countSlots (s : State) (p : LSlot → Bool) : Nat := (s.ledger.filter (fun x => p x.2)).length

def viewLdg (s : State) (off : Nat) : Nat :=
  let x := slotOf s (rd s ldgSlotSelSlot)
  let b := fun (x : Bool) => if x then 1 else 0
  match off with
  | 0x108 => fieldVal ldgSlotStatGen x.gen + fieldVal ldgSlotStatState x.state + fieldVal ldgSlotStatNfSeen (b x.nfSeen) +
      fieldVal ldgSlotStatMendSeen (b x.mendSeen)
  | 0x110 => fieldVal ldgSlotCnt0Rows x.rows + fieldVal ldgSlotCnt0Stale x.stale
  | 0x118 => fieldVal ldgSlotCnt1Cancelled x.cancelled + fieldVal ldgSlotCnt1Quar x.quar
  | 0x120 => fieldVal ldgSlotCnt2Marked x.marked + fieldVal ldgSlotCnt2Mended x.mended
  | 0x128 => fieldVal ldgSummaryQuarSlots (countSlots s (fun x => x.state == 2)) +
      fieldVal ldgSummaryCancSlots (countSlots s (fun x => x.state == 1)) + fieldVal ldgSummaryNfSlots (countSlots s (·.nfSeen))
  | _ => 0

/-- The advisor word that ADV_ADDR names (R82). -/
def advSelected (s : State) : Nat := advWord s (rd s fmtAdvAddrLayer) (rd s fmtAdvAddrSet) (rd s fmtAdvAddrWord)

def viewFmt (s : State) (off : Nat) : Nat :=
  match off with
  | 0x120 => advSelected s
  | 0x128 => fieldVal fmtStagedStep (nextStep s) + fieldVal fmtStagedAttempt s.epoch.attempt
  | _ => 0

/-! ### TRW, SCR, SCA, RSU, UPD -/

/-- A TRW register: a per-loader one reports the loader of LDR_SEL (R197). -/
def viewTrw (s : State) (off : Nat) : Nat :=
  let l := rd s trwLdrSelLoader
  match off with
  | 0x110 => fieldVal trwLcacheStatValid s.lcache.length
  | 0x118 => rd s (ofLoader trwRdBytesCount l)
  | 0x120 => rd s (ofLoader trwWrBytesCount l)
  | 0x128 => rd s (ofLoader trwXposeBytesCount l)
  | 0x130 => rd s (ofLoader trwExtraSectorsCount l)
  | 0x138 => rd s (ofLoader trwMarkedCount l)
  | 0x140 => rd s (ofLoader trwMendedCount l)
  | _ => 0

def tstateCode : TState → Nat
  | .untouched => 0 | .resident => 1 | .home => 2

def viewScr (s : State) (off : Nat) : Nat :=
  let g := rd s scrGrpSelGroup
  let x := groupOf s g
  let t := tileOf s g (rd s scrTileSelTile)
  let b := fun (x : Bool) => if x then 1 else 0
  match off with
  | 0x110 => fieldVal scrFramesLive (liveFrames s) + fieldVal scrFramesPinned (pinnedFrames s) +
      fieldVal scrFramesResident (residentCached s) + fieldVal scrFramesHeld (heldFrames s)
  | 0x118 => fieldVal scrDirUsed (dirUsed s)
  | 0x128 => fieldVal scrGrpStatState (gstateCode x.state) + fieldVal scrGrpStatPoison (b x.poison) + fieldVal scrGrpStatLongsum (b x.longsum) +
      fieldVal scrGrpStatSurrogate (b x.surrogate) + fieldVal scrGrpStatPinned (b (x.state != .free && pinned x)) +
      fieldVal scrGrpStatGen x.gen + fieldVal scrGrpStatTiles (groupTiles x) + fieldVal scrGrpStatStep x.step
  | 0x130 => fieldVal scrGrpStampTornStamp x.torn +
      fieldVal scrGrpStampHighStamp (s.tiles.foldl (fun n p => if p.1 / 2 ^ 14 = g then max n p.2.stamp else n) 0)
  | 0x140 => fieldVal scrTileStatState (tstateCode t.state) + fieldVal scrTileStatSpoiled (b t.spoiled) + fieldVal scrTileStatDirty (b t.dirty) +
      fieldVal scrTileStatFrame (if t.state == .resident then t.frame else 0) + fieldVal scrTileStatLastStamp t.stamp
  | _ => 0

/-- The GATHER or SCATTER the unit works on. -/
def scaRunning (s : State) : Option Cmd := s.cmds.find? (fun c => scaCmd c && c.asked != 0 && scaTurn s c)

def viewSca (s : State) (off : Nat) : Nat :=
  match off with
  | 0x148 => match scaRunning s with
    | some c => fieldVal scaBusyQueue c.q + fieldVal scaBusyActive 1 + fieldVal scaBusyWindow c.window
    | none => 0
  | _ => 0

def viewRsu (s : State) (off : Nat) : Nat :=
  match off with
  | 0x110 => fieldVal rsuCtxStatOpen s.rxOpen.length +
      fieldVal rsuCtxStatWaiting (min 15 (s.cmds.filter (fun c => isRecv c && c.phase == .started)).length)
  | 0x118 => (List.range 64).foldl (fun n g => n + if (groupOf s g).reduced then 2 ^ g else 0) 0
  | _ => 0

/-- The statistics word that STAT_ADDR names (R292). -/
def statSelected (s : State) : Nat :=
  statWord (tget statZero (if rd s updStatAddrSet = 0 then s.statsCom else s.statsSt) (rd s updStatAddrId)) (rd s updStatAddrWord)

def viewUpd (s : State) (off : Nat) : Nat :=
  let e := s.epoch
  match off with
  | 0x100 => fieldVal updEpochParity e.parity + fieldVal updEpochAttempt e.attempt + fieldVal updEpochStep e.step
  | 0x108 => fieldVal updStageCntApplied e.applied + fieldVal updStageCntParams e.params + fieldVal updStageCntPoisoned e.poisoned +
      fieldVal updStageCntState (estateCode e.state)
  | 0x110 => e.time
  | 0x148 => statSelected s
  | _ => 0

/-! ### COR, QUE, SIV, TRC -/

/-- ARR_STATE of an array (R116); where several hold, draining comes before ramping, ramping before a stall, a stall before filler
(DESIGN CHOICE, log 48). -/
def arrState (s : State) (a : Nat) : Nat :=
  let x := arrayOf s a
  if !((liveOfCore s (a / 4)).contains (a % 4)) then 0
  else if !x.on then 1
  else if x.passes.any (fun p => !p.stages.isEmpty && (findCmd s p.key).any (·.saved)) then 6
  else if x.level != 0 || (allLanes s).any (fun l => (laneArrays l).contains a && (laneStep s l).isSome) then 2
  else if (List.range 256).any (patchStalled s a) then 4
  else if x.passes.isEmpty then 5 else 3

def planeCode : PlaneState → Nat
  | .free => 0 | .active => 1 | .folding => 2 | .saving => 3 | .loading => 4

/-- ARR_MAP of a core (R110, R116). -/
def arrMap (s : State) (n : Nat) : Nat :=
  let live := liveOfCore s n
  let m := coreMap live
  let pair := fun (i : Nat) (d w v : Field) => match m.1[i]? with
    | some p => fieldVal d p.1 + fieldVal w p.2 + fieldVal v 1
    | none => 0
  live.foldl (fun x j => x + 2 ^ j) 0 + pair 0 (corArrMapP0D n) (corArrMapP0W n) (corArrMapP0V n) +
    pair 1 (corArrMapP1D n) (corArrMapP1W n) (corArrMapP1V n) +
    (match m.2 with
      | some j => fieldVal (corArrMapSingle n) j + fieldVal (corArrMapSingleV n) 1
      | none => 0)

def viewCor (s : State) (n off : Nat) : Nat :=
  match off with
  | 0x100 => arrMap s n
  | 0x108 => (List.range 4).foldl (fun w j => w + arrState s (4 * n + j) * 2 ^ (4 * j)) 0
  | 0x110 => (List.range 4).foldl (fun w j =>
      let x := arrayOf s (4 * n + j)
      w + (planeCode x.planeA.state + 8 * planeCode x.planeB.state) * 2 ^ (6 * j)) 0
  | 0x160 => if n = 0 then fieldVal (corHodStatUsed n) (hodUsed s) else 0
  | 0x198 => fieldVal (corSbPagesLive n) (256 - retiredPages s n)
  | _ => 0

def qstateCode : QState → Nat
  | .disabled => 0 | .running => 1 | .halted => 2 | .draining => 3

/-- Commands of a queue started and not retired (R325). -/
def queueStarted (s : State) (q : Nat) : Nat := ((queueCmds s q).filter startedCmd).length

def viewQue (s : State) (q off : Nat) : Nat :=
  match off with
  | 0x138 => fieldVal (queQstateState q) (qstateCode (queueOf s q).state) + fieldVal (queQstateStarted q) (queueStarted s q) +
      fieldVal (queQstateWait q) (queueWait s q)
  | _ => 0

/-- The page-specific fields that report state. -/
def viewOwn (s : State) (page off : Nat) : Nat :=
  match page with
  | 0x00 => viewGlb s off | 0x01 => viewCmd s off | 0x02 => viewPwr s off | 0x03 => viewRas s off
  | 0x04 => if off = 0x138 then fieldVal trcFifoLevel s.trace.length else 0
  | 0x05 => viewTst s off | 0x06 => viewLdg s off | 0x07 => viewFmt s off | 0x08 => viewTrw s off | 0x09 => viewScr s off
  | 0x0A => 0 | 0x0B => viewSca s off | 0x0C => viewRsu s off | 0x0D => viewUpd s off
  | p => if 0x10 ≤ p && p < 0x16 then viewCor s (p - 0x10) off else if 0x30 ≤ p && p < 0x40 then viewQue s (p - 0x30) off else 0

/-! ### The header (R426, R428) -/

/-- STAT.BUSY of a page (R428). -/
def pageBusy (s : State) (page : Nat) : Bool :=
  match page with
  | 0x00 => s.snap.state == .arming || s.snap.state == .running
  | 0x01 => runningCount s != 0
  | 0x02 => s.power.state == .rampUp || s.power.state == .drain || s.power.state == .rampDown || s.power.restart
  | 0x03 => rd s rasScrubCtlEnable == 1 && portClock s
  | 0x04 => !s.trace.isEmpty
  | 0x05 => bistState s != 0
  | 0x06 => opRuns s [0x32] || s.cmds.any (fun c => takesView c.desc && c.view.isNone && c.phase == .started)
  | 0x07 => s.advisor.any (fun p => p.2.stale)
  | 0x08 => (openReqs s).any (fun r => match r.why with
      | .cmdRead _ core _ => core < 6
      | .cmdWrite _ core => core < 6
      | _ => false)
  | 0x09 => !s.folds.isEmpty || s.cmds.any (fun c => isOp 0x08 c && !(gsPlane c.desc) && gsHome c.desc && c.phase == .started)
  | 0x0A => opRuns s [0x10, 0x11] || (!s.handoffs.isEmpty && !(hringRoom s))
  | 0x0B => (scaRunning s).isSome
  | 0x0C => opRuns s [0x20, 0x21] || !s.rxOpen.isEmpty
  | 0x0D => opRuns s [0x22] || s.epoch.state != .stable
  | p =>
    if 0x10 ≤ p && p < 0x16 then (List.range 4).any (fun j => (arrayOf s (4 * (p - 0x10) + j)).on)
    else queueStarted s (p - 0x30) != 0

/-- STAT of a page but UE_SEEN, which is stored. -/
def viewStat (s : State) (page : Nat) : Nat := (if pageBusy s page then 1 else 0) + if pageIrq s page then 2 else 0

/-- What a read of the register at `off` of a page returns, PAGE_CAP included; 0 where no register lies (R383, R423). A WO field reads 0 (R13). -/
def regRead (s : State) (page off : Nat) : Nat :=
  if page = 0x08 && 0x118 ≤ off && off ≤ 0x140 then viewTrw s off
  else storedWord s page off +
    (if off = 0x008 then pageCap page else if off = 0x018 then viewStat s page else viewOwn s page off)

end Sys2Proof.Machine
end

