-- ==== Sys2Proof/Machine/RegPort.lean ====
section
/-! DEFINITION. Register accesses (16 R382, R383, 18 R423 to R438): writes with a behaviour of their own, counter clears, event clears, and the
three reads that advance an address. -/

namespace Sys2Proof.Machine

/-! ### CTL (R426, R430) -/

/-- The counters of a page, and its fields that refer to the last clear (R430). -/
def clearFields (page : Nat) : List Field :=
  match page with
  | 0x00 => [glbIrqStatMsgs, glbTbStatSteps, glbResetStatWrsts]
  | 0x01 => [cmdClass0LatMax, cmdClass0LatOver, cmdPreemptsCount, cmdPreemptsResumes, cmdStartedCount, cmdBadDoorbellCount, cmdBadDoorbellQueue]
  | 0x02 => [pwrRampsUp, pwrRampsDown, pwrSkippedCount, pwrGovWaitCount]
  | 0x03 => [rasScrubStatPasses, rasLogLostCe, rasLogLostUe]
  | 0x04 => [trcDroppedFull, trcDroppedBacklog, trcDroppedAsleep]
  | 0x05 => [tstBistStatRuns]
  | 0x06 => [ldgAnonRowsCount, ldgBadTagsCount, ldgViewStallCount, ldgLateMarksCount]
  | 0x07 => [fmtAdvStaleCount]
  | 0x08 => [trwLcacheStatMisses, trwOrderedCount, trwMportErrCount, trwMportErrPort, trwMportErrLoader, trwMportErrWrite, trwErrAddrAddr] ++
      (List.range 6).flatMap (fun l => [ofLoader trwRdBytesCount l, ofLoader trwWrBytesCount l, ofLoader trwXposeBytesCount l,
        ofLoader trwExtraSectorsCount l, ofLoader trwMarkedCount l, ofLoader trwMendedCount l])
  | 0x09 => [scrFoldsCount, scrRefoldsCount, scrStaleCount, scrDroppedCount, scrEvictionsCount, scrFetchesCount, scrSatEventsCount,
      scrPreloadUnusedCount]
  | 0x0A => [sivHoffCountHandoffs, sivHoffCountBlocked, sivHoffStallCount, sivFormLoadsSparse24, sivFormLoadsBitmap, sivSieveTilesExamined,
      sivSieveTilesCandidates, sivSieveCountSkipped, sivSieveCountMadeup, sivCompFormsDense, sivCompFormsSparse24, sivCompFormsBitmap]
  | 0x0B => [scaIdxDroppedCount, scaWindowsCount, scaPairsCount, scaMergedCount, scaRdBytesCount, scaWrBytesCount, scaSatEventsCount]
  | 0x0C => [rsuCtxStatEvents, rsuPktSentCount, rsuPktRecvCount, rsuDupsCount, rsuNoctxCount, rsuEmptySentCount, rsuDigestErrCount,
      rsuTxBytesCount, rsuRxBytesCount, rsuThinKeptCount, rsuFportErrCount, rsuFportErrPort]
  | 0x0D => [updElemsCount, updNonfiniteCount, updSatEventsCount, updStatStaleCount, updAbandonsCount]
  | p =>
    if 0x10 ≤ p && p < 0x16 then
      let n := p - 0x10
      [corWdogStatEvents n, corSlotStallCount n, corPatchStallCount n, corFillerCount n, corPackedCount n, corSatEventsCount n, corDerivSatCount n,
        corRelayStallCount n, corHodStatPeak n, corHodStatFull n, corDycHitsCount n, corReleasedCount n]
    else []

/-- CTL.CLR (R430): the fields to their reset values, the per-class and per-bank counters of RAS (R377). -/
def clearCounters (page : Nat) (s : State) : State :=
  let s1 := (clearFields page).foldl (fun s f => wr s f f.reset) s
  if page = 0x03 then
    { s1 with ras := { s1.ras with
        buckets := s1.ras.buckets.foldr (fun p l => tput bucketZero l p.1 { p.2 with ce := 0, ue := 0, ovf := 0 }) [], banks := [] } }
  else s1

/-- CTL.CLR_UE (R426). -/
def clearUe (page : Nat) (s : State) : State := wr s (hdrStatUeSeen page) 0

def ctlWrite (page v : Nat) (s : State) : State :=
  let s1 := if bitOf v 0 then clearCounters page s else s
  if bitOf v 1 then clearUe page s1 else s1

/-- CTL_CLR. -/
def execCtlClr (page : BitVec 8) (s : State) : Host.Outcome State Fault Refusal := portWrite page.toNat (clearCounters page.toNat) s

/-- CLR_UE. -/
def execClrUe (page : BitVec 8) (s : State) : Host.Outcome State Fault Refusal := portWrite page.toNat (clearUe page.toNat) s

/-! ### EVT (R398, R426) -/

/-- A W1C write of EVT; when it leaves the summary of the page's vector at 1 a message follows (R398). -/
def clearEvents (page v : Nat) (s : State) : State :=
  let s1 := writeField v s (hdrEvt page)
  if vecSummary s1 (pageVector page) then irqMessage s1 (pageVector page) else s1

/-- EVT_CLEAR. -/
def execEvtClear (page : BitVec 8) (mask : Word) (s : State) : Host.Outcome State Fault Refusal :=
  portWrite page.toNat (clearEvents page.toNat mask.toNat) s

/-! ### GLB (R108, R109, R334, R342, R405) -/

/-- The live count of a grade (R109). -/
def gradeCount (g : Nat) : Nat :=
  match g with
  | 1 => 24 | 2 => 22 | 3 => 20 | 4 => 16
  | _ => 0

/-- Whether map and grade are inconsistent (R109). -/
def mapBad (live grade : Nat) : Bool :=
  grade == 0 || popcount live 24 != gradeCount grade || (List.range 6).any (fun c => popcount (bitsOf live (4 * c) 4) 4 < 2)

/-- The once-only write of ARRAY_LIVE (R13, R108, R109). -/
def writeArrayLive (v : Nat) (s : State) : State :=
  if rd s glbArrayLiveLocked = 1 then setEvt s (evLockedWrite 0x00)
  else
    let live := bitsOf v 0 24
    let g := bitsOf v 24 4
    let ok := fieldLegal glbArrayLiveGrade g
    let grade := if ok then g else 0
    let bad := mapBad live grade
    let s1 := wr (wr (wr (wr s glbArrayLiveLive live) glbArrayLiveGrade grade) glbArrayLiveLocked 1) glbArrayLiveMapBad (if bad then 1 else 0)
    setEvtIf bad (setEvtIf (!ok) s1 (evBadValue 0x00)) evMapBad

/-- ARRAY_LIVE_WRITE. -/
def execArrayLiveWrite (v : Word) (s : State) : Host.Outcome State Fault Refusal := portWrite 0x00 (writeArrayLive v.toNat) s

/-- Write a field when the condition holds; otherwise the write is ignored and BAD_VALUE is set. -/
def writeWhen (ok : Bool) (f : Field) (v : Nat) (s : State) : State := if ok then writeField v s f else setEvt s (evBadValue f.page)

/-- A write of SNAP_ARM: THRESHOLD, then ARM and DISARM by the state before it (DESIGN CHOICE, log 49). -/
def writeSnapArm (v : Nat) (s : State) : State :=
  let s1 := writeField v s glbSnapArmThreshold
  match s.snap.state with
  | .idle => if bitOf v 8 then armNow s1 else s1
  | .armed => if bitOf v 9 then disarmNow s1 else s1
  | _ => s1

def writeGlb (off v : Nat) (s : State) : State :=
  let idle := s.snap.state == .idle
  match off with
  | 0x100 => writeArrayLive v s
  | 0x108 => writeWhen idle glbFeedDomain v s
  | 0x110 => riskWrite v s
  | 0x118 => writeSnapArm v s
  | 0x120 => writeWhen (idle && v % 128 == 0) glbSnapDescAddr v s
  | 0x128 => writeWhen (idle && v % 32 == 0) glbSnapCplAddr v s
  | 0x140 => writeWhen (v % 8 == 0) (glbMsiAddrAddr 0) v s
  | 0x148 => writeWhen (v % 8 == 0) (glbMsiAddrAddr 1) v s
  | 0x150 => writeWhen (v % 8 == 0) (glbMsiAddrAddr 2) v s
  | 0x158 => writeWhen (v % 8 == 0) (glbMsiAddrAddr 3) v s
  | _ => writeFields s 0x00 off v

/-! ### CMD, PWR, RAS -/

/-- SAVE_BASE (R316, R324). -/
def writeCmd (off v : Nat) (s : State) : State :=
  match off with
  | 0x100 => writeWhen (v % 2 ^ 21 == 0 && !(s.cmds.any (·.saved))) cmdSaveBaseAddr v s
  | _ => writeFields s 0x01 off v

/-- STATE_CTL and the throttle floor act at once (R345, R356). -/
def writePwr (off v : Nat) (s : State) : State :=
  match off with
  | 0x100 => targetWrite v s
  | 0x120 => throttleRise (writeFields s 0x02 off v)
  | _ => writeFields s 0x02 off v

/-- A release count: a write that passes the head is ignored (R221, R377, R437). -/
def writeTail (head tail : Field) (v : Nat) (s : State) : State := writeWhen (!(serialLt (rd s head) (v % 2 ^ 32))) tail v s

def writeRas (off v : Nat) (s : State) : State :=
  match off with
  | 0x138 => writeTail rasLogHeadCount rasLogTailCount v s
  | _ => writeFields s 0x03 off v

/-! ### TRC (R437, R438) -/

/-- A write of RING_BASE or RING_CTL, accepted while SRC_EN is 0 and the FIFO is empty; then HEAD and TAIL are 0. -/
def writeRing (ctl : Bool) (v : Nat) (s : State) : State :=
  let f := if ctl then trcRingCtlSizeLog2 else trcRingBaseAddr
  let ok := if ctl then fieldLegal f (bitsOf v 0 5) else v % 32 == 0
  if ok && rd s trcSrcEnSources == 0 && s.trace.isEmpty then wr (wr (writeField v s f) trcHeadCount 0) trcTailCount 0
  else setEvt s (evBadValue 0x04)

/-- TRC_RING_WRITE. -/
def execTrcRingWrite (ctl : Bool) (v : Word) (s : State) : Host.Outcome State Fault Refusal := portWrite 0x04 (writeRing ctl v.toNat) s

/-- A write of MARK (R435, R438). -/
def writeMark (v : Nat) (s : State) : State := trace s 8 0 0 0 0 v 0

/-- TRACE_MARK. -/
def execTraceMark (v : Word) (s : State) : Host.Outcome State Fault Refusal := portWrite 0x04 (writeMark v.toNat) s

def writeTrc (off v : Nat) (s : State) : State :=
  match off with
  | 0x100 => writeRing false v s
  | 0x108 => writeRing true v s
  | 0x120 => writeTail trcHeadCount trcTailCount v s
  | 0x130 => writeMark v s
  | _ => writeFields s 0x04 off v

/-! ### FMT (R80, R82) -/

/-- The next advisor address when INC is set: WORD, carrying into LAYER. -/
def advAdvance (s : State) : State :=
  if rd s fmtAdvAddrInc = 1 then
    let n := rd s fmtAdvAddrLayer * 64 + rd s fmtAdvAddrWord + 1
    wr (wr s fmtAdvAddrWord (n % 64)) fmtAdvAddrLayer (n / 64)
  else s

/-- ADV_DATA_READ. -/
def execAdvDataRead (s : State) : Host.Outcome State Fault Refusal :=
  portWrite 0x07 (fun s => advAdvance { s with regData := advSelected s }) s

/-- A write of ADV_DATA: word 0 of the config set; any other word is not RW. The layer is evaluated again. -/
def writeAdvData (v : Nat) (s : State) : State :=
  let l := rd s fmtAdvAddrLayer
  advAdvance (if rd s fmtAdvAddrSet = 0 ∧ rd s fmtAdvAddrWord = 0 then
    setLayer s l { layerOf s l with dxMask := bitsOf v 0 10, homeMask := bitsOf v 16 2, stale := true }
  else setEvt s (evBadValue 0x07))

/-- ADV_DATA_WRITE. -/
def execAdvDataWrite (v : Word) (s : State) : Host.Outcome State Fault Refusal := portWrite 0x07 (writeAdvData v.toNat) s

/-- A write of ADV_CTL makes the advisor evaluate every layer again (R431); a layer at its reset value has nothing to evaluate. -/
def writeFmt (off v : Nat) (s : State) : State :=
  match off with
  | 0x110 => mapLayers (writeFields s 0x07 off v) (fun x => { x with stale := true })
  | 0x120 => writeAdvData v s
  | _ => writeFields s 0x07 off v

/-! ### TRW, SCR, SIV -/

def writeTrw (off v : Nat) (s : State) : State :=
  match off with
  | 0x108 => if bitOf v 0 then { s with lcache := [] } else s
  | _ => writeFields s 0x08 off v

/-- BANK_LIVE (R170). -/
def writeScr (off v : Nat) (s : State) : State :=
  match off with
  | 0x108 => writeWhen (s.groups.all (fun p => p.2.state == .free) && 4 ≤ popcount v 32) scrBankLiveMask v s
  | _ => writeFields s 0x09 off v

/-- The hand-off ring (R214, R221). -/
def writeSiv (off v : Nat) (s : State) : State :=
  let empty := rd s sivHringHeadIndex == rd s sivHringTailIndex
  match off with
  | 0x110 => writeWhen (empty && v % 64 == 0) sivHringBaseAddr v s
  | 0x118 => writeWhen empty sivHringCtlSizeLog2 v s
  | 0x128 => writeTail sivHringHeadIndex sivHringTailIndex v s
  | _ => writeFields s 0x0A off v

/-! ### COR, QUE -/

/-- SB_RETIRE0 to 3: at most 32 pages of a core, and no command started (R376). -/
def writeRetire (n i v : Nat) (s : State) : State :=
  let f := corSbRetirePages n i
  writeWhen (!(s.cmds.any startedCmd) && retiredPages (wr s f v) n ≤ 32) f v s

def writeCor (n off v : Nat) (s : State) : State :=
  match off with
  | 0x178 => writeRetire n 0 v s
  | 0x180 => writeRetire n 1 v s
  | 0x188 => writeRetire n 2 v s
  | 0x190 => writeRetire n 3 v s
  | _ => writeFields s (0x10 + n) off v

/-- An aligned base that R298 guards. -/
def writeBase (q v align : Nat) (f : Field) (s : State) : State :=
  if v % align = 0 then writeGuarded q v s f else setEvt s (evBadValue f.page)

def writeQue (q off v : Nat) (s : State) : State :=
  match off with
  | 0x100 => writeBase q v 128 (queRingBaseAddr q) s
  | 0x108 => ringCtlWrite q v s
  | 0x110 => writeBase q v 32 (queCplBaseAddr q) s
  | 0x118 => ringDoorbell q (v % 2 ^ 32) s
  | 0x148 => if bitOf v 0 then resumeQueue q s else s
  | 0x150 => setPointers q (v % 2 ^ 32) s
  | _ => writeFields s (0x30 + q) off v

/-! ### REG_WRITE (R382, R383, R424) -/

/-- A write of `v` at byte offset `off` of a page: the register's own behaviour, or its fields; nothing where no register lies. -/
def writeReg (page off v : Nat) (s : State) : State :=
  if off = 0x010 then ctlWrite page v s
  else if off = 0x020 then clearEvents page v s
  else match page with
    | 0x00 => writeGlb off v s
    | 0x01 => writeCmd off v s
    | 0x02 => writePwr off v s
    | 0x03 => writeRas off v s
    | 0x04 => writeTrc off v s
    | 0x07 => writeFmt off v s
    | 0x08 => writeTrw off v s
    | 0x09 => writeScr off v s
    | 0x0A => writeSiv off v s
    | p =>
      if 0x10 ≤ p && p < 0x16 then writeCor (p - 0x10) off v s
      else if 0x30 ≤ p && p < 0x40 then writeQue (p - 0x30) off v s
      else writeFields s p off v

/-- REG_WRITE: the request's address is bits [19:3] of the offset in the window. -/
def execRegWrite (addr : BitVec 17) (v : Word) (s : State) : Host.Outcome State Fault Refusal :=
  let o := addr.toNat * 8
  portWrite (o / 4096) (writeReg (o / 4096) (o % 4096) v.toNat) s

/-! ### Reads that advance an address (R292, R377) -/

/-- STAT_DATA_READ: WORD advances, carrying into ID. -/
def execStatDataRead (s : State) : Host.Outcome State Fault Refusal :=
  portWrite 0x0D (fun s =>
    let s1 := { s with regData := statSelected s }
    if rd s updStatAddrInc = 1 then
      let n := rd s updStatAddrId * 4 + rd s updStatAddrWord + 1
      wr (wr s1 updStatAddrWord (n % 4)) updStatAddrId (n / 4)
    else s1) s

/-- LOG_DATA3_READ: INDEX advances. -/
def execLogData3Read (s : State) : Host.Outcome State Fault Refusal :=
  portWrite 0x03 (fun s =>
    let s1 := { s with regData := logWord s 3 }
    if rd s rasLogSelInc = 1 then wr s1 rasLogSelIndex (rd s rasLogSelIndex + 1) else s1) s

end Sys2Proof.Machine
end

