-- ==== Sys2Proof/Machine/Test.lean ====
section
/-! DEFINITION. Self-test by command (17 R412 to R418) and the test port (R419 to R421). What a test finds is an operand of the row that ends it
(log 20). -/

namespace Sys2Proof.Machine

/-! ### BIST (R412 to R417) -/

def bistKind (d : List Byte) : Nat := dNum d 0x30 1
def bistResult (d : List Byte) : Nat := dNum d 0x20 8

/-- Whether UNITS bit `u` is tested by logic: a live array or a core, unless KIND is MEMORY (R412). -/
def logicTests (s : State) (d : List Byte) (u : Nat) : Bool :=
  bistKind d != 2 && bitOf (bistUnits d) u && (if u < 24 then (liveOfCore s (u / 4)).contains (u % 4) else u < 30)

/-- Whether UNITS bit `u` is tested by memory: a live array, a core, a live bank or the control memories, unless KIND is LOGIC (R412). -/
def memoryTests (s : State) (d : List Byte) (u : Nat) : Bool :=
  bistKind d != 1 && bitOf (bistUnits d) u &&
    (if u < 24 then (liveOfCore s (u / 4)).contains (u % 4)
     else if u < 30 then true
     else if u < 62 then bitOf (rd s scrBankLiveMask) (u - 30)
     else u == 62)

/-- The number with the bits of `l` set. -/
def bitSet (l : List Nat) : Nat := l.foldl (fun n u => n ||| 2 ^ u) 0

/-- BIST begins (R413): the tested lanes have array work from now on. -/
def beginBist (s : State) (c : Cmd) : State :=
  let s1 := modCmd s c.key (fun c => { c with phase := .begun, aux := [(0, now s)] })
  powerMove { s1 with bist := { s1.bist with key := some c.key, status := if bistKind c.desc = 2 then 3 else 2 } }

/-- A BIST of one KIND. -/
def runBist (kind : Nat) (r : CmdRef) (s : State) : Host.Outcome State Fault Refusal :=
  runUnit s (refKey r) (fun c => isOp 0x38 c && bistKind c.desc == kind) beginBist

/-- BIST_LOGIC (R414). -/
def execBistLogic (r : CmdRef) (s : State) : Host.Outcome State Fault Refusal := runBist 1 r s

/-- BIST_MEMORY (R416). -/
def execBistMemory (r : CmdRef) (s : State) : Host.Outcome State Fault Refusal := runBist 2 r s

/-- BIST_LOGIC_THEN_MEMORY. -/
def execBistLogicThenMemory (r : CmdRef) (s : State) : Host.Outcome State Fault Refusal := runBist 3 r s

/-- The signature a unit should give (R415). -/
def signature (u : Nat) : Nat := if u < 24 then tstSigExpArraySig.reset else tstSigExpCoreSig.reset

/-- The signature read from a unit: the one reported, else the expected one. -/
def misrOf (o : BistOutcome) (u : Nat) : Nat := ((o.misrFail.find? (fun p => p.1.toNat == u)).map (fun p => p.2.toNat)).getD (signature u)

/-- Class, count and first word of a unit's failing words, with a count above 0 (R416). -/
def memOf (o : BistOutcome) (u : Nat) : Option (Nat × Nat × Nat) :=
  (o.memFail.find? (fun p => p.1.toNat == u && p.2.2.1 != 0)).map (fun p => (p.2.1.toNat, p.2.2.1.toNat, p.2.2.2.toNat))

/-- The units that fail. -/
def logicFails (s : State) (d : List Byte) (o : BistOutcome) : List Nat :=
  (List.range 30).filter (fun u => logicTests s d u && misrOf o u != signature u)
def memoryFails (s : State) (d : List Byte) (o : BistOutcome) : List Nat :=
  (List.range 63).filter (fun u => memoryTests s d u && (memOf o u).isSome)

/-- An array holds nothing: FREE planes, empty slots. -/
def emptyArray (s : State) (a : Nat) : State :=
  setArray s a { arrayOf s a with
    slotF := false, slot0 := wslotEmpty, slot1 := wslotEmpty, planeA := planeFree, planeB := planeFree, passes := [], groups := [], starved := [] }

/-- Whether a damaged word lies in a memory of the unit. -/
def unitDamage (u : Nat) (d : Damage) : Bool :=
  if u < 24 then (d.cls == 4 || d.cls == 5) && d.unit == u
  else if u < 30 then d.cls == 3 && d.unit == u - 24
  else if u < 62 then d.cls ≤ 1 && d.unit == u - 30
  else d.cls == 2 || (7 ≤ d.cls && d.cls ≤ 10)

/-- The memories of a unit unwritten: what they held is gone and damage in them with it (R406, R407, R417). -/
def unwriteUnit (s : State) (u : Nat) : State :=
  let s := { s with ras := { s.ras with damage := s.ras.damage.filter (fun d => !(unitDamage u d)) } }
  if u < 24 then emptyArray s u
  else if u < 30 then
    let s := dropStaged s (fun e => e.core == u - 24)
    { s with dyCache := [], hod := if u = 24 then [] else s.hod }
  else if u < 62 then s
  else
    syncLost { s with
      tiles := [], ledger := [], advisor := [], statsCom := [], statsSt := [], rxOpen := [], rxClosed := [], lcache := []
      ras := { s.ras with lost := [] } }

/-- What the tests leave in the units (R417 step 1). -/
def testedUnits (s : State) (d : List Byte) : State :=
  let s1 := ((List.range 24).filter (logicTests s d)).foldl emptyArray s
  ((List.range 63).filter (memoryTests s d)).foldl unwriteUnit s1

/-- CLASS and first word of a failing unit in its record: those of its memory, 0xFF and 0 for logic (DESIGN CHOICE, log 50: a unit that
fails both reports its memory). -/
def failClass (o : BistOutcome) (mf : List Nat) (u : Nat) : Nat × Nat :=
  match if mf.contains u then memOf o u else none with
  | some m => (m.1, m.2.2)
  | none => (0xFF, 0)

/-- UNIT of the record: array, core or bank number for a memory, the UNITS bit for logic (DESIGN CHOICE, log 50). -/
def failUnit (mem : Bool) (u : Nat) : Nat :=
  if !mem || u < 24 then u else if u < 30 then u - 24 else if u < 62 then u - 30 else 0xFF

/-- The record of a failing unit and, of an array, its ARR_FAIL bit (R417 steps 2 and 3). -/
def reportFail (o : BistOutcome) (mf : List Nat) (c : Cmd) (s : State) (u : Nat) : State :=
  let f := failClass o mf u
  let q := logCmd (some c)
  logPut (failArray s u) ⟨2, f.1, 8, failUnit (mf.contains u) u, f.2, 0, 0, q.1, 0xFF, q.2⟩

/-- The result record (R417). -/
def bistRecord (s : State) (c : Cmd) (tested lf mf : List Nat) (o : BistOutcome) : List Byte :=
  let first := (lf ++ mf).min?
  let f := match first with
    | some u => failClass o mf u
    | none => (0, 0)
  natLE 0x42535446 4 ++ natLE (bistKind c.desc) 1 ++ natLE 0 3 ++ natLE (bitSet tested) 8 ++ natLE (bitSet lf) 8 ++ natLE (bitSet mf) 8 ++
    natLE (tget 0 c.aux 0) 8 ++ natLE (now s) 8 ++ natLE (first.getD 0xFF) 1 ++ natLE f.1 1 ++ natLE 0 2 ++ natLE f.2 4 ++ natLE 0 8

/-- MISR and failing words as the TST page shows them (R422). -/
def showResults (s : State) (d : List Byte) (o : BistOutcome) : State :=
  let ls := (List.range 30).filter (logicTests s d)
  let ms := (List.range 63).filter (memoryTests s d)
  { s with bist := { s.bist with
      key := none, status := 0, misr := ls.foldl (fun l u => tput 0 l u (misrOf o u)) s.bist.misr
      mem := ms.foldl (fun l u => tput (0, 0, 0) l u ((memOf o u).getD (0, 0, 0))) s.bist.mem } }

/-- The end of a BIST (R417). -/
def endBist (s : State) (c : Cmd) (o : BistOutcome) : State :=
  let d := c.desc
  let lf := logicFails s d o
  let mf := memoryFails s d o
  let tested := (List.range 63).filter (fun u => logicTests s d u || memoryTests s d u)
  let fails := (List.range 63).filter (fun u => lf.contains u || mf.contains u)
  let status := if fails.isEmpty then stOK else stFault
  let s1 := fails.foldl (reportFail o mf c) (testedUnits s d)
  let s2 := (showResults s1 d o).store (bistResult d) (bistRecord s c tested lf mf o)
  let s3 := bump (wr s2 tstBistStatLastStatus status) tstBistStatRuns 1
  endCmd (setEvtIf (status == stFault) (setEvt s3 evBistDone) evBistFail) c.key status 0 0

/-- Whether the lanes a BIST tests are clocked (R345, R413). -/
def bistClocked (s : State) (d : List Byte) : Bool :=
  !(arrayCmd d) || s.power.state == .rampUp || s.power.state == .active || s.power.state == .drain

/-- BIST_END. -/
def execBistEnd (r : CmdRef) (o : BistOutcome) (s : State) : Host.Outcome State Fault Refusal :=
  match findCmd s (refKey r) with
  | some c =>
    if unitsRun s && isOp 0x38 c && c.phase == .begun && s.bist.key == some c.key && bistClocked s c.desc then
      .next (settle s (awaitWrites (endBist s c o) c.key 7))
    else .next s
  | none => .next s

/-! ### The test port (R419 to R421) -/

/-- An instruction loaded into the WIR; without power nothing happens. -/
def loadWir (w : Wir) (s : State) : State := { s with test := { s.test with wir := w } }

/-- An instruction that needs RST_N asserted: without that it only stands in the WIR; with it the functional state is undefined until RST_N is
applied again (R420). -/
def disturb (w : Wir) (s : State) : State :=
  { s with test := { s.test with wir := w, disturbed := s.test.disturbed || s.rstLow } }

/-- A test-port row: without power it does nothing. -/
def testPort (f : State → State) (s : State) : Host.Outcome State Fault Refusal :=
  if s.power.state == .off then .next s else .next (settle s (f s))

/-- WS_BYPASS: WBY is selected; the engine is not disturbed (R420). -/
def execWsBypass (s : State) : Host.Outcome State Fault Refusal := testPort (loadWir .bypass) s

/-- WS_EXTEST. -/
def execWsExtest (s : State) : Host.Outcome State Fault Refusal := testPort (disturb .extest) s

/-- WS_INTEST. -/
def execWsIntest (s : State) : Host.Outcome State Fault Refusal := testPort (disturb .intest) s

/-- WS_PRELOAD: the boundary register takes the values shifted in, and drives nothing. -/
def execWsPreload (v : List Bool) (s : State) : Host.Outcome State Fault Refusal :=
  testPort (fun s => { s with test := { s.test with wir := .preload, wbr := v } }) s

/-- WS_CLAMP. -/
def execWsClamp (s : State) : Host.Outcome State Fault Refusal := testPort (disturb .clamp) s

/-- WS_SCAN. -/
def execWsScan (s : State) : Host.Outcome State Fault Refusal := testPort (disturb .scan) s

/-- WP_SCAN. -/
def execWpScan (s : State) : Host.Outcome State Fault Refusal := testPort (disturb .wpScan) s

/-- WS_IJTAG: the 1687 network is selected. -/
def execWsIjtag (s : State) : Host.Outcome State Fault Refusal := testPort (loadWir .ijtag) s

def ctlOf (s : State) (u : Nat) : Ctl1687 := tget ctl1687Zero s.test.ctls u
def setCtl (s : State) (a : Nat) (x : Ctl1687) : State := { s with test := { s.test with ctls := tput ctl1687Zero s.test.ctls a x } }

/-- The tests a unit has among those KIND names: logic of arrays and cores, memory of every unit (R412, R421). -/
def unitTests (u kind : Nat) : Nat := flagIf (bitOf kind 0 && u < 30) 1 + flagIf (bitOf kind 1 && u < 63) 2

/-- BIST_CONTROLLER_START: of any unit, live or not, with RST_N asserted; otherwise START is ignored (R421). -/
def execBistControllerStart (u : BitVec 6) (kind : BitVec 2) (s : State) : Host.Outcome State Fault Refusal :=
  testPort (fun s =>
    let k := unitTests u.toNat kind.toNat
    if s.rstLow && s.test.wir == .ijtag && k != 0 then
      setCtl s u.toNat { ctlOf s u.toNat with run := true, kind := k, done := false, fail := false }
    else s) s

/-- BIST_CONTROLLER_DONE: DONE, FAIL and the readouts of the tests that ran (R421). -/
def execBistControllerDone (u : BitVec 6) (fail : Bool) (misr : Word) (count : BitVec 16) (first : BitVec 48) (s : State) :
    Host.Outcome State Fault Refusal :=
  testPort (fun s =>
    let x := ctlOf s u.toNat
    let mem := bitOf x.kind 1
    if s.rstLow && x.run then
      setCtl s u.toNat { x with
        run := false, done := true, fail := fail, misr := if bitOf x.kind 0 then misr.toNat else x.misr
        count := if mem then count.toNat else x.count, first := if mem then first.toNat else x.first }
    else s) s

/-- WRSTN: the wrapper and its WIR are reset (R419); a disturbance stays until RST_N is applied (R420). -/
def execWrstn (s : State) : Host.Outcome State Fault Refusal :=
  testPort (fun s => { s with test := { testReset with disturbed := s.test.disturbed } }) s

end Sys2Proof.Machine
end

