-- ==== Sys2Proof/Machine/Dispatch.lean ====
section
/-! DEFINITION. One arm per command. -/

namespace Sys2Proof.Machine

/-- What a command does. -/
def exec (i : Instr) (s : State) : Host.Outcome State Fault Refusal :=
  match i with
  | .nop r => Sys2Proof.Machine.execNop r s
  | .loadw r => Sys2Proof.Machine.execLoadw r s
  | .plain r => Sys2Proof.Machine.execPlain r s
  | .dx r => Sys2Proof.Machine.execDx r s
  | .dw r => Sys2Proof.Machine.execDw r s
  | .pair r => Sys2Proof.Machine.execPair r s
  | .fold r => Sys2Proof.Machine.execFold r s
  | .gclearOpen r => Sys2Proof.Machine.execGclearOpen r s
  | .gclearClear r => Sys2Proof.Machine.execGclearClear r s
  | .gclearClose r => Sys2Proof.Machine.execGclearClose r s
  | .gsaveGroup r => Sys2Proof.Machine.execGsaveGroup r s
  | .flush r => Sys2Proof.Machine.execFlush r s
  | .divert r => Sys2Proof.Machine.execDivert r s
  | .grestoreGroup r => Sys2Proof.Machine.execGrestoreGroup r s
  | .preload r => Sys2Proof.Machine.execPreload r s
  | .sieve r => Sys2Proof.Machine.execSieve r s
  | .compress r => Sys2Proof.Machine.execCompress r s
  | .gather r => Sys2Proof.Machine.execGather r s
  | .scatterStore r => Sys2Proof.Machine.execScatterStore r s
  | .scatterAccum r => Sys2Proof.Machine.execScatterAccum r s
  | .scatterAccumGroup r => Sys2Proof.Machine.execScatterAccumGroup r s
  | .sendContrib r => Sys2Proof.Machine.execSendContrib r s
  | .sendParams r => Sys2Proof.Machine.execSendParams r s
  | .sendChain r => Sys2Proof.Machine.execSendChain r s
  | .recvReduced r => Sys2Proof.Machine.execRecvReduced r s
  | .recvParams r => Sys2Proof.Machine.execRecvParams r s
  | .recvChainAdd r => Sys2Proof.Machine.execRecvChainAdd r s
  | .recvChainSet r => Sys2Proof.Machine.execRecvChainSet r s
  | .apply r => Sys2Proof.Machine.execApply r s
  | .applyCopy r => Sys2Proof.Machine.execApplyCopy r s
  | .commit r => Sys2Proof.Machine.execCommit r s
  | .epochFlip r => Sys2Proof.Machine.execEpochFlip r s
  | .abandon r => Sys2Proof.Machine.execAbandon r s
  | .abandonDone r => Sys2Proof.Machine.execAbandonDone r s
  | .snap r => Sys2Proof.Machine.execSnap r s
  | .restore r => Sys2Proof.Machine.execRestore r s
  | .epochOnlyRestore r => Sys2Proof.Machine.execEpochOnlyRestore r s
  | .fence r => Sys2Proof.Machine.execFence r s
  | .fenceTargetsReached r => Sys2Proof.Machine.execFenceTargetsReached r s
  | .stamp r => Sys2Proof.Machine.execStamp r s
  | .stampWrite r => Sys2Proof.Machine.execStampWrite r s
  | .bump r => Sys2Proof.Machine.execBump r s
  | .cancel r => Sys2Proof.Machine.execCancel r s
  | .quarantine r => Sys2Proof.Machine.execQuarantine r s
  | .release r => Sys2Proof.Machine.execRelease r s
  | .ledgerClear r => Sys2Proof.Machine.execLedgerClear r s
  | .ledgerDump r => Sys2Proof.Machine.execLedgerDump r s
  | .ledgerLoad r => Sys2Proof.Machine.execLedgerLoad r s
  | .bistLogic r => Sys2Proof.Machine.execBistLogic r s
  | .bistMemory r => Sys2Proof.Machine.execBistMemory r s
  | .bistLogicThenMemory r => Sys2Proof.Machine.execBistLogicThenMemory r s
  | .bistEnd r o => Sys2Proof.Machine.execBistEnd r o s
  | .doorbell q tail => Sys2Proof.Machine.execDoorbell q tail s
  | .queueEnable q ctl => Sys2Proof.Machine.execQueueEnable q ctl s
  | .queueDisable q ctl => Sys2Proof.Machine.execQueueDisable q ctl s
  | .resume q => Sys2Proof.Machine.execResume q s
  | .setptr q v => Sys2Proof.Machine.execSetptr q v s
  | .descriptorFetch q => Sys2Proof.Machine.execDescriptorFetch q s
  | .commandStart q => Sys2Proof.Machine.execCommandStart q s
  | .ledgerView r => Sys2Proof.Machine.execLedgerView r s
  | .completionRecord r => Sys2Proof.Machine.execCompletionRecord r s
  | .preempt r => Sys2Proof.Machine.execPreempt r s
  | .commandResume r => Sys2Proof.Machine.execCommandResume r s
  | .planeSaveComplete a => Sys2Proof.Machine.execPlaneSaveComplete a s
  | .planeLoadComplete a => Sys2Proof.Machine.execPlaneLoadComplete a s
  | .slotLoad a => Sys2Proof.Machine.execSlotLoad a s
  | .rowGroupIssue a => Sys2Proof.Machine.execRowGroupIssue a s
  | .patchRowGroup a patch => Sys2Proof.Machine.execPatchRowGroup a patch s
  | .carryRelay a => Sys2Proof.Machine.execCarryRelay a s
  | .hodDelivery => Sys2Proof.Machine.execHodDelivery s
  | .fillerBridgeExpiry a => Sys2Proof.Machine.execFillerBridgeExpiry a s
  | .starve a patch => Sys2Proof.Machine.execStarve a patch s
  | .trowelFetch r => Sys2Proof.Machine.execTrowelFetch r s
  | .trowelStore r => Sys2Proof.Machine.execTrowelStore r s
  | .lcacheInv => Sys2Proof.Machine.execLcacheInv s
  | .foldBegin a => Sys2Proof.Machine.execFoldBegin a s
  | .foldEnd a => Sys2Proof.Machine.execFoldEnd a s
  | .tileFetch g t => Sys2Proof.Machine.execTileFetch g t s
  | .tileEvict => Sys2Proof.Machine.execTileEvict s
  | .sieveDecision r => Sys2Proof.Machine.execSieveDecision r s
  | .handoffRecord => Sys2Proof.Machine.execHandoffRecord s
  | .scaWindow r => Sys2Proof.Machine.execScaWindow r s
  | .packetSend port => Sys2Proof.Machine.execPacketSend port s
  | .fportReceive port pid packet => Sys2Proof.Machine.execFportReceive port pid packet s
  | .fportStatus port pid error => Sys2Proof.Machine.execFportStatus port pid error s
  | .recvWait r => Sys2Proof.Machine.execRecvWait r s
  | .advisorEvaluation layer => Sys2Proof.Machine.execAdvisorEvaluation layer s
  | .powerTarget v => Sys2Proof.Machine.execPowerTarget v s
  | .clockRequest => Sys2Proof.Machine.execClockRequest s
  | .pclkAckRise => Sys2Proof.Machine.execPclkAckRise s
  | .wakeDone => Sys2Proof.Machine.execWakeDone s
  | .sleepQuiescenceEnd => Sys2Proof.Machine.execSleepQuiescenceEnd s
  | .pclkAckFall => Sys2Proof.Machine.execPclkAckFall s
  | .retentionEntryDone => Sys2Proof.Machine.execRetentionEntryDone s
  | .clkSlow => Sys2Proof.Machine.execClkSlow s
  | .governorTick time => Sys2Proof.Machine.execGovernorTick time s
  | .throttleChange level => Sys2Proof.Machine.execThrottleChange level s
  | .budgetChange b => Sys2Proof.Machine.execBudgetChange b s
  | .scrubAccess => Sys2Proof.Machine.execScrubAccess s
  | .correctionWriteBack => Sys2Proof.Machine.execCorrectionWriteBack s
  | .bucketLeak => Sys2Proof.Machine.execBucketLeak s
  | .keepMajorityRepair => Sys2Proof.Machine.execKeepMajorityRepair s
  | .mportResponse port tag st poison data => Sys2Proof.Machine.execMportResponse port tag st poison data s
  | .tbValidChange valid => Sys2Proof.Machine.execTbValidChange valid s
  | .tbStep time => Sys2Proof.Machine.execTbStep time s
  | .rstN asserted straps => Sys2Proof.Machine.execRstN asserted straps s
  | .wrstN asserted straps => Sys2Proof.Machine.execWrstN asserted straps s
  | .powerLoss => Sys2Proof.Machine.execPowerLoss s
  | .interruptMessage => Sys2Proof.Machine.execInterruptMessage s
  | .traceRecordWrite => Sys2Proof.Machine.execTraceRecordWrite s
  | .regWrite addr v => Sys2Proof.Machine.execRegWrite addr v s
  | .ctlClr page => Sys2Proof.Machine.execCtlClr page s
  | .clrUe page => Sys2Proof.Machine.execClrUe page s
  | .evtClear page mask => Sys2Proof.Machine.execEvtClear page mask s
  | .arrayLiveWrite v => Sys2Proof.Machine.execArrayLiveWrite v s
  | .riskLevelWrite v => Sys2Proof.Machine.execRiskLevelWrite v s
  | .arm => Sys2Proof.Machine.execArm s
  | .disarm => Sys2Proof.Machine.execDisarm s
  | .traceMark v => Sys2Proof.Machine.execTraceMark v s
  | .trcRingWrite ctl v => Sys2Proof.Machine.execTrcRingWrite ctl v s
  | .advDataRead => Sys2Proof.Machine.execAdvDataRead s
  | .advDataWrite v => Sys2Proof.Machine.execAdvDataWrite v s
  | .statDataRead => Sys2Proof.Machine.execStatDataRead s
  | .logData3Read => Sys2Proof.Machine.execLogData3Read s
  | .wsBypass => Sys2Proof.Machine.execWsBypass s
  | .wsExtest => Sys2Proof.Machine.execWsExtest s
  | .wsIntest => Sys2Proof.Machine.execWsIntest s
  | .wsPreload v => Sys2Proof.Machine.execWsPreload v s
  | .wsClamp => Sys2Proof.Machine.execWsClamp s
  | .wsScan => Sys2Proof.Machine.execWsScan s
  | .wpScan => Sys2Proof.Machine.execWpScan s
  | .wsIjtag => Sys2Proof.Machine.execWsIjtag s
  | .bistControllerStart u kind => Sys2Proof.Machine.execBistControllerStart u kind s
  | .memoryError e double => Sys2Proof.Machine.execMemoryError e double s
  | .arrayFailure a => Sys2Proof.Machine.execArrayFailure a s
  | .bistControllerDone u fail misr count first => Sys2Proof.Machine.execBistControllerDone u fail misr count first s
  | .wrstn => Sys2Proof.Machine.execWrstn s

end Sys2Proof.Machine
end

