-- ==== Sys2Proof/Safety.lean ====
section
/-! DEFINITION. What counts as a safe run: the invariant every step keeps, runs that stop at nothing, and the conditions and results
in which the statements speak of commands. -/

namespace Sys2Proof.Safety

/-- The invariant of the block between steps: memory is in canonical form, no write of a step is left over, and no unit holds what it has read in a step. -/
def Inv (s : Machine.State) : Prop := Machine.Memory.wf s.mem = true ∧ s.wbuf = [] ∧ s.rbuf = []

/-- A run of `k` steps that reaches a state without a fault or a refusal. -/
def Runs (k : Nat) (s t : Machine.State) : Prop := Sys2Proof.core.run k s = .next t

end Sys2Proof.Safety

namespace Sys2Proof.Machine

/-- A started command its unit can run at once: nothing holds it, none of its parts has failed, no damaged word or lost record waits for it,
and the state is one between two steps. -/
def Ready (s : State) (k : Nat) (c : Cmd) : Prop :=
  findCmd s k = some c ∧ runnable s c = true ∧ c.errs = [] ∧ s.ras.damage = [] ∧ s.ras.lost = [] ∧ s.wbuf = [] ∧ s.rbuf = []

/-- A command whose unit runs all its tiles at once and ends it here: it is the one command of the block and its screening is done (R187),
each tile is finished with no fold to come, and no array, fold, handed-over tile or image holds a part of it. -/
def TilesDone (s : State) (k : Nat) (c : Cmd) : Prop :=
  Ready s k c ∧ s.cmds = [c] ∧ guardReady s c = true ∧ c.trapRow = none ∧ (∀ i ∈ c.items, i.st = .done ∧ i.array < 24) ∧
  pM c.desc ≤ c.screened ∧ (takesView c.desc = true → c.view.isSome = true) ∧
  (∀ p ∈ s.arrays, p.2.passes = [] ∧ p.2.groups = [] ∧ p.2.planeA.state = .free ∧ p.2.planeB.state = .free) ∧
  s.folds = [] ∧ s.hod = [] ∧ s.images = []

/-- A started command that has begun and waits for its event, between two steps, while the units run. -/
def Begun (s : State) (k : Nat) (c : Cmd) : Prop :=
  findCmd s k = some c ∧ unitsRun s = true ∧ c.phase = .begun ∧ s.wbuf = [] ∧ s.rbuf = []

/-- The command has ended with the status, flags and RESULT given, and every other command is as it was. -/
def Ended (s t : State) (c : Cmd) (status flags result : Nat) : Prop :=
  findCmd t c.key = some (endedCmd c status flags result) ∧ ∀ j, j ≠ c.key → findCmd t j = findCmd s j

/-- The command has begun, and every other command is as it was. -/
def Begins (s t : State) (c : Cmd) : Prop :=
  findCmd t c.key = some { c with phase := .begun } ∧ ∀ j, j ≠ c.key → findCmd t j = findCmd s j

/-- The command of a key has ended with the status and flags given. -/
def EndedAs (t : State) (k status flags : Nat) : Prop :=
  ∃ c, findCmd t k = some c ∧ c.phase = .ended ∧ c.status = status ∧ c.flags = flags

/-- Emptying a group: its tiles are UNTOUCHED with no stamp, its flags are clear, its preloads are gone, GEN has advanced; the other
groups, their tiles and their preloads are as they were. -/
def EmptiedOnly (s t : State) (g : Nat) : Prop :=
  (∀ k < 2 ^ 14, tileOf t g k = tileEmpty) ∧ (∀ h k, h ≠ g → k < 2 ^ 14 → tileOf t h k = tileOf s h k) ∧
  (∀ h, h ≠ g → groupOf t h = groupOf s h) ∧ t.preloads = s.preloads.filter (fun p => p.group != g) ∧
  (groupOf t g).gen = ((groupOf s g).gen + 1) % 256 ∧ (groupOf t g).poison = false ∧ (groupOf t g).longsum = false ∧
  (groupOf t g).surrogate = false ∧ (groupOf t g).reduced = false ∧ (groupOf t g).torn = 0

/-- The tiles of a group may have been accessed (R164); nothing else of a tile has changed. -/
def Accessed (s t : State) (g : Nat) : Prop :=
  ∀ k, ∃ a, tget tileEmpty t.tiles k = { tget tileEmpty s.tiles k with access := a } ∧
    (k / 2 ^ 14 ≠ g → a = (tget tileEmpty s.tiles k).access)

/-- The register port takes an access to a page. -/
def Reaches (s : State) (page : Nat) : Prop :=
  awake s = true ∧ pageExists page = true ∧ regAsleep s page = false ∧ s.wbuf = [] ∧ s.rbuf = []

/-- Every command but one is as it was. -/
def Others (s t : State) (k : Nat) : Prop := ∀ j, j ≠ k → findCmd t j = findCmd s j

/-- Every register field reads as before but those of the pages named. -/
def StatusKept (s t : State) (pages : List Nat) : Prop :=
  ∀ f : Field, allPages.contains f.page = true → f.off < 4096 → f.lo < 64 → f.page ∉ pages → rd t f = rd s f

/-- Every register field but those of the list reads as before. -/
def FieldsKept (s t : State) (l : List Field) : Prop := ∀ f : Field, fieldKey f ∉ l.map fieldKey → rd t f = rd s f

/-- The fields that setting an event of a page may write: its EVT and EVT_STAMP, and those of TRC with its counts of lost records (R426, R436). -/
def eventFields (page : Nat) : List Field :=
  [hdrEvt page, hdrEvtStamp page, hdrEvt 0x04, hdrEvtStamp 0x04, trcDroppedFull, trcDroppedBacklog, trcDroppedAsleep]

/-- An address that no element of a rows × cols array of a layout lies at. -/
def Outside (l : Layout) (rows cols a : Nat) : Prop :=
  ∀ r < rows, ∀ c < cols, a < (elemAddr l r c).1 ∨ (elemAddr l r c).1 + ceilDiv ((elemAddr l r c).2 + layoutBits l) 8 ≤ a

end Sys2Proof.Machine
end

