-- ==== Sys2Proof/Certificates/Slice0/Obligations.lean ====
section
/-! DEFINITION. The statements for the provers. A state `t` that equals `{ s with f := t.f, … }` differs from `s` in the named
fields only, so such an equation is a statement's frame. What a unit has read it sees as it arrived: `readView s c.key 7` is the state
as the unit of the command `c` reads it. -/

open Sys2Proof Sys2Proof.Machine

/-! ### The machine -/

/-- The block's step: the command at the front of the queue runs on the state with the queue's rest; with an empty queue the block idles,
which is the model's choice (log 1). -/
def Obligations.StepRunsTheFrontCommand : Prop :=
  (∀ (c : Instr) (rest : List Instr) (s : State), s.pending = c :: rest → step s = exec c { s with pending := rest }) ∧
  ∀ s : State, s.pending = [] → step s = .next s

/-- Reset leaves the engine in KEEP with TARGET = KEEP, the epoch at parity 0 and step 0, every queue DISABLED, every group FREE, no command
started, and every register field at its reset value but FPORT_PRESENT, whose strap the manual gives no value (log 12); the invariant holds. -/
def Obligations.ResetLeavesTheResetState : Prop :=
  let s := State.reset
  Safety.Inv s ∧ s.power.state = .keep ∧ target s = 0 ∧ s.epoch.parity = 0 ∧ s.epoch.step = 0 ∧ s.cmds = [] ∧ s.mreqs = [] ∧
    s.mwait = [] ∧ s.staged = [] ∧
    (∀ q, (queueOf s q).state = .disabled) ∧ (∀ g, (groupOf s g).state = .free) ∧ arraysUsable s = false ∧
    ∀ f : Field, fieldKey f ≠ fieldKey glbStrapsFportPresent → f.acc ≠ .view → f.acc ≠ .wo → rd s f = f.reset

/-- Every step from a state with the invariant reaches a next state with the invariant: no command stops the block, and memory keeps its
canonical form. The step takes at most the command at the front from the queue; a command never touches the rest. -/
def Obligations.EveryStepKeepsTheInvariant : Prop :=
  ∀ s : State, Safety.Inv s → ∃ t, step s = .next t ∧ Safety.Inv t ∧ t.pending = s.pending.tail

/-! ### Commands of the control group: NOP, FENCE, STAMP (R305, R306) -/

/-- NOP ends OK, and FENCE and STAMP begin to wait.
A FENCE that has begun ends OK exactly when no queue of QMASK has RETIRED below its TARGET, and else goes on waiting; while one of
its queue has not completed, COMMAND_START of a RUNNING queue may read layout records but starts no command. A STAMP that has begun writes the
8 bytes of VALUE to ADDR and ends OK once every earlier command of its queue has completed, and else goes on waiting. -/
def Obligations.NopFenceStampRun : Prop :=
  (∀ (r : CmdRef) (s : State) (c : Cmd), Ready s (refKey r) c →
     (dOp c.desc = 0x00 → ∃ t, exec (.nop r) s = .next t ∧ Ended s t c stOK 0 0 ∧ t = { s with cmds := t.cmds }) ∧
     (dOp c.desc = 0x30 → ∃ t, exec (.fence r) s = .next t ∧ Begins s t c ∧ t = { s with cmds := t.cmds }) ∧
     (dOp c.desc = 0x31 → ∃ t, exec (.stamp r) s = .next t ∧ Begins s t c ∧ t = { s with cmds := t.cmds })) ∧
  (∀ (r : CmdRef) (s : State) (c : Cmd), Begun s (refKey r) c → dOp c.desc = 0x30 →
    ((∀ q < 16, bitOf (dNum c.desc 0x20 2) q = true → serialLt (rd s (queRetiredCount q)) (dNum c.desc (0x24 + 4 * q) 4) = false) →
      ∃ t, exec (.fenceTargetsReached r) s = .next t ∧ Ended s t c stOK 0 0 ∧ t = { s with cmds := t.cmds }) ∧
    ((∃ q < 16, bitOf (dNum c.desc 0x20 2) q = true ∧ serialLt (rd s (queRetiredCount q)) (dNum c.desc (0x24 + 4 * q) 4) = true) →
      exec (.fenceTargetsReached r) s = .next s)) ∧
  (∀ (q : BitVec 4) (s : State) (c : Cmd), c ∈ s.cmds → c.q = q.toNat → dOp c.desc = 0x30 →
    (queueOf s q.toNat).state = .running → (∀ f ∈ (queueOf s q.toNat).fetched, f.failed = false) → s.wbuf = [] → s.rbuf = [] →
    ∃ t, exec (.commandStart q) s = .next t ∧ t = { s with mreqs := t.mreqs, mwait := t.mwait }) ∧
  ∀ (r : CmdRef) (s : State) (c : Cmd), Begun s (refKey r) c → dOp c.desc = 0x31 →
    ((∀ e ∈ s.cmds, e.q = c.q → serialLt e.seq c.seq = false) →
      ∃ t, exec (.stampWrite r) s = .next t ∧ Ended s t c stOK 0 0 ∧
        (∀ i < 8, t.byte (dNum c.desc 0x20 8 + i) = BitVec.ofNat 8 (dNum c.desc 0x28 8 / 2 ^ (8 * i))) ∧
        (∀ a, a < dNum c.desc 0x20 8 ∨ dNum c.desc 0x20 8 + 8 ≤ a → t.byte a = s.byte a) ∧
        t = { s with cmds := t.cmds, mem := t.mem, mreqs := t.mreqs, mwait := t.mwait }) ∧
    ((∃ e ∈ s.cmds, e.q = c.q ∧ serialLt e.seq c.seq = true) → exec (.stampWrite r) s = .next s)

/-! ### LOADW and the Screed's commands (06_screed) -/

/-- LOADW first makes its reads, one after the other, for every core with a lane; then it stages the stationary operand of its record address,
each of these cores keeping what it has read while its stage buffer has room (R303, R126), and ends OK. A divert binds its tile while fewer
than 16 are held, and waits while 16 are. Nothing else changes. -/
def Obligations.LoadwStagesAndDivertBinds : Prop :=
  ∀ (r : CmdRef) (s : State) (c : Cmd), Ready s (refKey r) c →
    (dOp c.desc = 0x01 → c.asked < loadwReads c → ∃ t, exec (.loadw r) s = .next t ∧
      findCmd t c.key = some { c with asked := c.asked + 1 } ∧ Others s t c.key ∧ StatusKept s t [] ∧
      t = { s with cmds := t.cmds, sts := t.sts, mreqs := t.mreqs, mwait := t.mwait }) ∧
    (dOp c.desc = 0x01 → loadwReads c ≤ c.asked → ∃ t, exec (.loadw r) s = .next t ∧ Ended s t c stOK 0 0 ∧
      dNum c.desc 0x20 8 ∈ t.loadw ∧ (∀ w, w ≠ dNum c.desc 0x20 8 → (w ∈ t.loadw ↔ w ∈ s.loadw)) ∧
      (∀ e ∈ t.staged, e.key = copyKey → e.part = dNum c.desc 0x20 8 → e.core ∈ laneCores s →
        e.cells = (s.staged.filter (fun x => x.key == c.key && x.core == e.core)).flatMap (·.cells)) ∧
      (∀ e : Staged, e.key ≠ c.key → ¬ (e.key = copyKey ∧ e.part = dNum c.desc 0x20 8) → (e ∈ t.staged ↔ e ∈ s.staged)) ∧
      t = { s with cmds := t.cmds, loadw := t.loadw, staged := t.staged }) ∧
    (dOp c.desc = 0x08 → gsPlane c.desc = true → s.diverts.length < 16 →
      ∃ t, exec (.divert r) s = .next t ∧ Ended s t c stOK 0 0 ∧
        t.diverts = s.diverts ++ [⟨c.q, gsStamp c.desc, gsGroup c.desc, gsTile c.desc, c.seq, gsAddr c.desc⟩] ∧
        t = { s with cmds := t.cmds, diverts := t.diverts }) ∧
    (16 ≤ s.diverts.length → exec (.divert r) s = .next s)

/-- GCLEAR: CLEAR keeps the parameters, takes STEP and leaves the group OPEN; CLOSE leaves it FREE; of a group that is FREE by then both end with
NO_GROUP and change nothing. OPEN takes the parameters of the descriptor, with the home format latched at its start, when the directory and the
pinned frames have room; tiles of cached groups make way for its frames, and while those that would have to are held it waits. Without room it
ends with the refusal's status and changes no group. -/
def Obligations.GclearEmptiesTheGroup : Prop :=
  ∀ (r : CmdRef) (s : State) (c : Cmd), Ready s (refKey r) c → dOp c.desc = 0x07 →
    let g := gclearGroup c.desc
    let x := groupOf s g
    let opened := openedGroup (tget 0 c.aux 0) c.desc x
    let room := roomStatus s g { opened with state := .open }
    let takes := fun (t : State) => (groupOf t g).state = .open ∧ (groupOf t g).step = dStep c.desc ∧
      (groupOf t g).rows = dNum c.desc 0x2C 3 ∧ (groupOf t g).cols = dNum c.desc 0x30 3 ∧ (groupOf t g).homeAddr = dNum c.desc 0x20 8 ∧
      (groupOf t g).homePitch = dNum c.desc 0x28 4 ∧ (groupOf t g).homeFmt = tget 0 c.aux 0 ∧ (groupOf t g).tid = dTid c.desc
    (gclearMode c.desc = 1 → x.state ≠ .free → ∃ t, exec (.gclearClear r) s = .next t ∧ Ended s t c stOK 0 0 ∧ EmptiedOnly s t g ∧
      groupOf t g = { x with
        state := .open, step := dStep c.desc, torn := 0, gen := (x.gen + 1) % 256, poison := false, longsum := false
        surrogate := false, abandoned := false, reduced := false } ∧
      StatusKept s t [0x09] ∧ t = { s with
          cmds := t.cmds, groups := t.groups, tiles := t.tiles, frames := t.frames, preloads := t.preloads, sts := t.sts }) ∧
    (gclearMode c.desc = 2 → x.state ≠ .free → ∃ t, exec (.gclearClose r) s = .next t ∧ Ended s t c stOK 0 0 ∧ EmptiedOnly s t g ∧
      (groupOf t g).state = .free ∧ StatusKept s t [0x09] ∧ t = { s with
          cmds := t.cmds, groups := t.groups, tiles := t.tiles, frames := t.frames, preloads := t.preloads, sts := t.sts }) ∧
    (x.state = .free →
      (gclearMode c.desc = 1 → ∃ t, exec (.gclearClear r) s = .next t ∧ Ended s t c stNoGroup 0 0 ∧ t = { s with cmds := t.cmds }) ∧
      (gclearMode c.desc = 2 → ∃ t, exec (.gclearClose r) s = .next t ∧ Ended s t c stNoGroup 0 0 ∧ t = { s with
          cmds := t.cmds })) ∧
    (gclearMode c.desc = 0 → room = stOK →
      (framesOver (emptyGroup (setGroup s g opened) g false) = false →
        ∃ t, exec (.gclearOpen r) s = .next t ∧ Ended s t c stOK 0 0 ∧ EmptiedOnly s t g ∧ takes t ∧ StatusKept s t [0x09] ∧
          t = { s with
              cmds := t.cmds, groups := t.groups, tiles := t.tiles, frames := t.frames, preloads := t.preloads, sts := t.sts }) ∧
      (framesOver (openRun s c) = false →
        ∃ t, exec (.gclearOpen r) s = .next t ∧ Ended s t c stOK 0 0 ∧ takes t ∧ (∀ h, h ≠ g → groupOf t h = groupOf s h) ∧
          StatusKept s t [0x09] ∧ t = { s with
              cmds := t.cmds, groups := t.groups, tiles := t.tiles, frames := t.frames, preloads := t.preloads, mem := t.mem
              mreqs := t.mreqs, sts := t.sts, mwait := t.mwait }) ∧
      (framesOver (openRun s c) = true → exec (.gclearOpen r) s = .next s)) ∧
    (gclearMode c.desc = 0 → room ≠ stOK → ∃ t, exec (.gclearOpen r) s = .next t ∧ Ended s t c room 0 0 ∧ t = { s with
        cmds := t.cmds })

/-- A GSAVE of a group image: with GEN still the latched one and room for the image it puts the image at ADDR, byte for byte, and ends OK;
with too little room it ends with NO_SPACE and writes nothing; with another GEN it ends with GROUP_RESET or ABANDONED. It reads the tiles (R164).
A GRESTORE of a group refuses an image whose header, tile records or digest fail the checks with BAD_IMAGE, one without room with the status of
that, and neither has an effect; one that passes makes the group as the image's header records it, with GEN advanced, and ends OK, or waits while
the frames it needs are held. A PRELOAD holds a sound plane record and binds it, refuses a bad one with BAD_IMAGE, and waits while 16 are held or
no frame is free. -/
def Obligations.GroupImagesAreSavedAndRestored : Prop :=
  (∀ (r : CmdRef) (s : State) (c : Cmd), Ready s (refKey r) c → dOp c.desc = 0x08 → gsPlane c.desc = false → gsHome c.desc = false →
     groupBusy s (gsGroup c.desc) = false →
     let g := gsGroup c.desc
     let image := groupImage (readView s c.key 7) g
     ((groupOf s g).gen = genOf c g → imageLen (imageTiles s g).length ≤ gsLimit c.desc →
       ∃ t, exec (.gsaveGroup r) s = .next t ∧ Ended s t c stOK 0 0 ∧ Accessed s t g ∧
         (∀ i (h : i < image.length), t.byte (gsAddr c.desc + i) = image[i]) ∧
         (∀ a, a < gsAddr c.desc ∨ gsAddr c.desc + image.length ≤ a → t.byte a = s.byte a) ∧
         t = { s with cmds := t.cmds, mem := t.mem, mreqs := t.mreqs, tiles := t.tiles, clock := t.clock, mwait := t.mwait }) ∧
     ((groupOf s g).gen = genOf c g → gsLimit c.desc < imageLen (imageTiles s g).length →
       ∃ t, exec (.gsaveGroup r) s = .next t ∧ Ended s t c stNoSpace 0 0 ∧ Accessed s t g ∧ t = { s with
           cmds := t.cmds, tiles := t.tiles, clock := t.clock }) ∧
     ((groupOf s g).gen ≠ genOf c g →
       ∃ t, exec (.gsaveGroup r) s = .next t ∧ Ended s t c (resetStatus (groupOf s g)) 0 0 ∧ Accessed s t g ∧ t = { s with
           cmds := t.cmds, tiles := t.tiles, clock := t.clock })) ∧
  ∀ (r : CmdRef) (s : State) (c : Cmd), Ready s (refKey r) c → dOp c.desc = 0x09 →
    let v := readView s c.key 7
    let a := gsAddr c.desc
    let g := gsGroup c.desc
    let h := v.bytes a 128
    let x := imageGroup h (groupOf s g).gen
    let n := fieldAt h 0x38 4
    let ok := imageHeaderOk h g = true ∧ imageTilesOk x ((List.range n).map (fun i => v.bytes (a + (128 + i * 524320)) 32)) = true ∧
      v.num (a + (imageLen n - 8)) 8 = crc64 (v.bytes a (imageLen n - 8))
    (gsPlane c.desc = false → groupBusy s g = false → ¬ ok →
      ∃ t, exec (.grestoreGroup r) s = .next t ∧ Ended s t c stBadImage 0 0 ∧ t = { s with cmds := t.cmds }) ∧
    (gsPlane c.desc = false → groupBusy s g = false → ok → roomStatus s g x ≠ stOK →
      ∃ t, exec (.grestoreGroup r) s = .next t ∧ Ended s t c (roomStatus s g x) 0 0 ∧ t = { s with cmds := t.cmds }) ∧
    (gsPlane c.desc = false → groupBusy s g = false → ok → roomStatus s g x = stOK →
      (framesOver (restoreRead v c).1 = false →
        ∃ t, exec (.grestoreGroup r) s = .next t ∧ Ended s t c stOK 0 0 ∧ groupOf t g = x ∧
          (groupOf t g).gen = ((groupOf s g).gen + 1) % 256 ∧ (∀ j, j ≠ g → groupOf t j = groupOf s j) ∧
          StatusKept s t [0x09] ∧ t = { s with
              cmds := t.cmds, groups := t.groups, tiles := t.tiles, frames := t.frames, clock := t.clock, mem := t.mem
              mreqs := t.mreqs, sts := t.sts, mwait := t.mwait }) ∧
      (framesOver (restoreRead v c).1 = true → exec (.grestoreGroup r) s = .next s)) ∧
    (gsPlane c.desc = true → s.preloads.length < 16 → 0 < freeFrames s →
      let p := v.bytes a 64
      let rows := fieldAt p 8 2
      let len := 64 + rows * 256 * (if fieldAt p 6 1 = 9 then 6 else 4)
      let sound := planeRecordOk (tileRange (groupOf s g)) p = true ∧ v.num (a + len) 8 = crc64 (v.bytes a len)
      (sound → ∃ t, exec (.preload r) s = .next t ∧ Ended s t c stOK 0 0 ∧
        t.preloads = s.preloads ++ [⟨c.q, gsStamp c.desc, g, gsTile c.desc, c.seq, rows,
          planeEntries (fieldAt p 6 1) rows (fun o n => v.bytes (a + 64 + o) n)⟩] ∧ t = { s with
              cmds := t.cmds, preloads := t.preloads }) ∧
      (¬ sound → ∃ t, exec (.preload r) s = .next t ∧ Ended s t c stBadImage 0 0 ∧ t = { s with cmds := t.cmds })) ∧
    (gsPlane c.desc = true → 16 ≤ s.preloads.length ∨ freeFrames s = 0 → exec (.preload r) s = .next s)

/-- FLUSH: with GEN still the latched one it ends OK, every resident tile of the group is clean, and the home buffer of a binary64 group
whose rows do not overlap holds every entry of its resident tiles; no byte outside the home entries of the group changes. With another GEN it
ends with GROUP_RESET or ABANDONED and writes nothing. It reads the tiles (R164). -/
def Obligations.FlushWritesTheHomeBuffer : Prop :=
  ∀ (r : CmdRef) (s : State) (c : Cmd), Ready s (refKey r) c → dOp c.desc = 0x08 → gsPlane c.desc = false → gsHome c.desc = true →
    groupBusy s (gsGroup c.desc) = false →
    let g := gsGroup c.desc
    let x := groupOf s g
    (x.gen = genOf c g →
      ∃ t, exec (.flush r) s = .next t ∧ Ended s t c stOK 0 0 ∧
        (∀ k < groupTiles x, (tileOf s g k).state = .resident →
          tileOf t g k = { tileOf s g k with dirty := false, access := (tileOf t g k).access }) ∧
        (∀ k, groupTiles x ≤ k ∨ (tileOf s g k).state ≠ .resident → k < 2 ^ 14 →
          tileOf t g k = { tileOf s g k with access := (tileOf t g k).access }) ∧
        (∀ h k, h ≠ g → k < 2 ^ 14 → tileOf t h k = tileOf s h k) ∧
        (x.homeFmt ≠ 0 → 8 * x.cols ≤ x.homePitch → ∀ k < groupTiles x, (tileOf s g k).state = .resident →
          ∀ p ∈ tileCells x k, t.num (homeEntry x p.2.1 p.2.2) 8 = (readEntry s g k p.1).toNat) ∧
        (∀ a, (∀ k < groupTiles x, ∀ p ∈ tileCells x k, a < homeEntry x p.2.1 p.2.2 ∨ homeEntry x p.2.1 p.2.2 + homeSize x ≤ a) →
          t.byte a = s.byte a) ∧
        StatusKept s t [0x09] ∧ t = { s with
            cmds := t.cmds, mem := t.mem, tiles := t.tiles, clock := t.clock, mreqs := t.mreqs, sts := t.sts, mwait := t.mwait }) ∧
    (x.gen ≠ genOf c g →
      ∃ t, exec (.flush r) s = .next t ∧ Ended s t c (resetStatus x) 0 0 ∧ Accessed s t g ∧ t = { s with
          cmds := t.cmds, tiles := t.tiles, clock := t.clock })

/-- FOLD of a region that covers one tile, when each tile of the group has a frame to be had. In a group that is OPEN, or TORN at this stamp,
and whose GEN is the latched one: above the stamp of a resident tile, each covered entry becomes the binary64 sum of itself and the converted
element, every other entry and every other tile stays, the tile takes the stamp, and the command ends OK; at the tile's own stamp nothing is added
and the record carries REFOLD; below it nothing is added, the record carries STALE, and under STALE_BREAK the group becomes BROKEN. Into a
BROKEN group or one TORN at another stamp the fold is refused with GROUP_BROKEN or GROUP_TORN; with another GEN its rows are dropped with
GROUP_RESET or ABANDONED. -/
def Obligations.FoldAddsOnceByStamp : Prop :=
  ∀ (r : CmdRef) (s : State) (c : Cmd) (k : Nat), Ready s (refKey r) c → dOp c.desc = 0x06 →
    let g := foldGroup c.desc
    let x := groupOf s g
    let cells := foldRegion (readView s c.key 7) c.desc x k
    let takes := x.gen = genOf c g ∧ (x.state = .open ∨ x.state = .torn ∧ x.torn = dStamp c.desc)
    foldTurn s c g = true → groupBusy s g = false → (∀ j < groupTiles x, frameFor s g j = true) → k < groupTiles x → cells ≠ [] →
    (∀ j < groupTiles x, j ≠ k → foldRegion (readView s c.key 7) c.desc x j = []) →
    (takes → (tileOf s g k).state = .resident → (tileOf s g k).stamp < dStamp c.desc →
      ∃ t, exec (.fold r) s = .next t ∧ EndedAs t c.key stOK c.flags ∧ Others s t c.key ∧ (tileOf t g k).stamp = dStamp c.desc ∧
        (groupOf t g).state = .open ∧ (tileOf t g k).state = .resident ∧
        (∀ p ∈ cells, readEntry t g k p.1 = b64Add (readEntry s g k p.1) p.2) ∧
        (∀ i, (∀ p ∈ cells, p.1 ≠ i) → readEntry t g k i = readEntry s g k i) ∧
        (∀ h j, tileKey h j ≠ tileKey g k → tileOf t h j = tileOf s h j) ∧
        StatusKept s t [0x04, 0x09] ∧ t = { s with
            cmds := t.cmds, groups := t.groups, tiles := t.tiles, frames := t.frames, clock := t.clock, sts := t.sts
            trace := t.trace, cport := t.cport }) ∧
    (takes → (tileOf s g k).stamp = dStamp c.desc →
      ∃ t, exec (.fold r) s = .next t ∧ EndedAs t c.key stOK (c.flags ||| flRefold) ∧ Others s t c.key ∧ StatusKept s t [0x09] ∧
        t = { s with cmds := t.cmds, groups := t.groups, sts := t.sts }) ∧
    (takes → dStamp c.desc < (tileOf s g k).stamp →
      ∃ t, exec (.fold r) s = .next t ∧ EndedAs t c.key stOK (c.flags ||| flStale) ∧ Others s t c.key ∧
        (groupOf t g).state = (if c.lat.staleBreak then .broken else .open) ∧ StatusKept s t [0x04, 0x09] ∧
        t = { s with cmds := t.cmds, groups := t.groups, sts := t.sts, trace := t.trace, cport := t.cport }) ∧
    (x.gen = genOf c g → x.state = .broken →
      ∃ t, exec (.fold r) s = .next t ∧ EndedAs t c.key stGroupBroken c.flags ∧ t = { s with cmds := t.cmds }) ∧
    (x.gen = genOf c g → x.state = .torn → x.torn ≠ dStamp c.desc →
      ∃ t, exec (.fold r) s = .next t ∧ EndedAs t c.key stGroupTorn c.flags ∧ t = { s with cmds := t.cmds }) ∧
    (x.gen ≠ genOf c g →
      ∃ t, exec (.fold r) s = .next t ∧ EndedAs t c.key (resetStatus x) c.flags ∧ StatusKept s t [0x09] ∧ t = { s with
          cmds := t.cmds, sts := t.sts })

/-! ### The sample ledger (09 R222 to R231) -/

/-- The operations of LEDGER that change slots, over a range: each selected slot but 0xFFF (for CLEAR also that one) takes the effect of
the operation, every other slot stays, RESULT counts the slots skipped; over a list, a slot that no tag word names stays, and a list of one
word acts on the slot it names only when the word's reserved bits are 0 and its generation is the slot's. -/
def Obligations.LedgerOperationsActOnTheSelectedSlots : Prop :=
  ∀ (r : CmdRef) (s : State) (c : Cmd) (op : Nat) (guard : Bool) (f : LSlot → LSlot) (i : Instr),
    Ready s (refKey r) c → dOp c.desc = 0x32 → ledgerOp c.desc = op →
    (op, guard, i) ∈ [(0, true, Instr.bump r), (1, true, .cancel r), (2, true, .quarantine r), (3, true, .release r), (4, false, .ledgerClear r)] →
    f = (match op with
      | 0 => fun x => if ledgerZero c.desc then { lslotReset with gen := (x.gen + 1) % 256 } else { x with gen := (x.gen + 1) % 256, state := 0 }
      | 1 => fun x => { x with state := 1 }
      | 2 => fun x => { x with state := 2 }
      | 3 => fun x => { x with state := 0 }
      | _ => fun x => { lslotReset with gen := x.gen, state := x.state }) →
    ∃ t skipped, exec i s = .next t ∧ Ended s t c stOK 0 skipped ∧ t = { s with cmds := t.cmds, ledger := t.ledger } ∧
      (ledgerList c.desc = false →
        let sel := fun k => ledgerFirst c.desc ≤ k ∧ k < ledgerFirst c.desc + ledgerCount c.desc
        (∀ k, sel k → (guard = true → k ≠ 0xFFF) → slotOf t k = f (slotOf s k)) ∧
        (∀ k, ¬ sel k ∨ (guard = true ∧ k = 0xFFF) → slotOf t k = slotOf s k) ∧
        skipped = if guard = true ∧ sel 0xFFF then 1 else 0) ∧
      (ledgerList c.desc = true →
        let word := fun i => (readView s c.key 7).num (ledgerAddr c.desc + 4 * i) 4
        (∀ k, (∀ i < ledgerCount c.desc, tagSlot (word i) ≠ k) → slotOf t k = slotOf s k) ∧
        (ledgerCount c.desc = 1 →
          let k := tagSlot (word 0)
          if tagReserved (word 0) = false ∧ tagGen (word 0) = (slotOf s k).gen ∧ (guard = true → k ≠ 0xFFF) then
            slotOf t k = f (slotOf s k) ∧ skipped = 0
          else slotOf t k = slotOf s k ∧ skipped = 1))

/-- LEDGER DUMP writes 32 bytes for each slot of its range, in order, and ends OK; LOAD of records without STATE 3 or reserved bits puts each
into its slot, slot 0xFFF keeping GEN 0 and LIVE, and ends OK; one bad record refuses the whole LOAD with BAD_IMAGE. -/
def Obligations.LedgerDumpsAndLoads : Prop :=
  ∀ (r : CmdRef) (s : State) (c : Cmd), Ready s (refKey r) c → dOp c.desc = 0x32 →
    let v := readView s c.key 7
    let a := ledgerAddr c.desc
    let first := ledgerFirst c.desc
    let n := ledgerCount c.desc
    (ledgerOp c.desc = 5 → ∃ t, exec (.ledgerDump r) s = .next t ∧ Ended s t c stOK 0 0 ∧
      (∀ i < n, t.bytes (a + 32 * i) 32 = slotBytes (slotOf s (first + i))) ∧
      (∀ b, b < a ∨ a + 32 * n ≤ b → t.byte b = s.byte b) ∧ t = { s with
          cmds := t.cmds, mem := t.mem, mreqs := t.mreqs, mwait := t.mwait }) ∧
    (ledgerOp c.desc = 6 → (∀ i < n, slotBytesOk (v.bytes (a + 32 * i) 32) = true) →
      ∃ t, exec (.ledgerLoad r) s = .next t ∧ Ended s t c stOK 0 0 ∧
        (∀ i < n, first + i ≠ 0xFFF → slotOf t (first + i) = slotParse (v.bytes (a + 32 * i) 32)) ∧
        (∀ i < n, first + i = 0xFFF → slotOf t 0xFFF = { slotParse (v.bytes (a + 32 * i) 32) with gen := 0, state := 0 }) ∧
        (∀ k, k < first ∨ first + n ≤ k → slotOf t k = slotOf s k) ∧
        StatusKept s t [0x03, 0x04] ∧ t = { s with
            cmds := t.cmds, ledger := t.ledger, sts := t.sts, trace := t.trace, cport := t.cport }) ∧
    (ledgerOp c.desc = 6 → (∃ i < n, slotBytesOk (v.bytes (a + 32 * i) 32) = false) →
      ∃ t, exec (.ledgerLoad r) s = .next t ∧ Ended s t c stBadImage 0 0 ∧ t = { s with cmds := t.cmds })

/-! ### A failed part, and the product commands (03, 04, 05) -/

/-- A FOLD or COMPRESS a part of which has failed ends with the highest status among the failed parts, and a group that a FOLD writes, if
OPEN under the latched GEN, becomes TORN at its stamp. Nothing is folded or written (R196, R322, R152). -/
def Obligations.FailedPartsAbort : Prop :=
  ∀ (r : CmdRef) (s : State) (c : Cmd), findCmd s (refKey r) = some c → runnable s c = true → c.errs ≠ [] → s.ras.damage = [] →
    s.ras.lost = [] → s.wbuf = [] → s.rbuf = [] →
    (dOp c.desc = 0x11 → unitTurn s c (isOp 0x11) = true →
      ∃ t, exec (.compress r) s = .next t ∧ EndedAs t c.key (worstErr c) c.flags ∧ Others s t c.key ∧ t = { s with
          cmds := t.cmds }) ∧
    (dOp c.desc = 0x06 → foldTurn s c (foldGroup c.desc) = true → groupBusy s (foldGroup c.desc) = false →
      (∀ j < groupTiles (groupOf s (foldGroup c.desc)), frameFor s (foldGroup c.desc) j = true) →
      (groupOf s (foldGroup c.desc)).gen = genOf c (foldGroup c.desc) →
      ∃ t, exec (.fold r) s = .next t ∧ EndedAs t c.key (worstErr c) c.flags ∧ Others s t c.key ∧
        ((groupOf s (foldGroup c.desc)).state = .open →
          groupOf t (foldGroup c.desc) = { groupOf s (foldGroup c.desc) with state := .torn, torn := dStamp c.desc }) ∧
        ((groupOf s (foldGroup c.desc)).state ≠ .open → t.groups = s.groups) ∧
        StatusKept s t [0x04, 0x09] ∧ t = { s with
            cmds := t.cmds, groups := t.groups, sts := t.sts, trace := t.trace, cport := t.cport }) ∧
    ∀ e ∈ c.errs, e.2 ≤ worstErr c

/-- The rows of PLAIN, DX, DW and PAIR run as far as they can (log 10) and change no state but that named. One whose tiles are all done ends, alone
in the engine, with the status its folds have left, and with its flags; a group its stamp had torn is OPEN again where that status is OK, its
hand-off records wait in order, and an element that has left the edge and is not stored yet is stored first, converted by the store's format. -/
def Obligations.ProductsRunToTheirEnd : Prop :=
  ∀ (r : CmdRef) (s : State) (c : Cmd) (op : Nat) (i : Instr),
    (op, i) ∈ [(0x02, Instr.plain r), (0x03, .dx r), (0x04, .dw r), (0x05, .pair r)] →
    findCmd s (refKey r) = some c → dOp c.desc = op → s.wbuf = [] → s.rbuf = [] → s.ras.damage = [] →
    (∃ t, exec i s = .next t ∧ t = { s with
        arrays := t.arrays, clock := t.clock, cmds := t.cmds, dyCache := t.dyCache, folds := t.folds, frames := t.frames
        groups := t.groups, handoffs := t.handoffs, hod := t.hod, images := t.images, ledger := t.ledger, loadw := t.loadw
        mem := t.mem, mreqs := t.mreqs, preloads := t.preloads, staged := t.staged, sts := t.sts, tiles := t.tiles
        trace := t.trace, cport := t.cport, mwait := t.mwait }) ∧
    (TilesDone s (refKey r) c → pStores c.desc = false ∨ storeRun s c = [] ∧ outWaiting c = [] →
      let hs := if c.hoff then handoffList (allView s c) c (genOf c (pGroup c.desc)) else []
      ∃ t, exec i s = .next t ∧ EndedAs t c.key c.status (c.flags ||| productFlags c (!hs.isEmpty)) ∧ t.handoffs = s.handoffs ++ hs ∧
        (∀ g ∈ writtenGroups c.desc, c.status = stOK → (groupOf s g).state = .torn → (groupOf s g).torn = dStamp c.desc →
          (groupOf t g).state = .open) ∧
        (∀ g, g ∉ writtenGroups c.desc → groupOf t g = groupOf s g) ∧
        (hs = [] → t.mem = s.mem) ∧
        StatusKept s t [0x0A] ∧ t = { s with
            cmds := t.cmds, dyCache := t.dyCache, groups := t.groups, handoffs := t.handoffs, mem := t.mem, mreqs := t.mreqs
            staged := t.staged, sts := t.sts, mwait := t.mwait }) ∧
    ∀ row col x : Nat, TilesDone s (refKey r) c → pStores c.desc = true → c.hoff = false →
      let l := layoutAt s c.outRec
      disjointLayout l = true → l.mx = false → axisRow l 0 = false → layoutBits l = 32 →
      tableWf 0 c.aux = true → col < 2 ^ 24 → x < 2 ^ 48 → c.aux.filter (fun p => p.2 < 2 ^ 48) = [(auxKey row col, x)] →
      let a := (elemAddr l row col).1
      ∃ t flags, exec i s = .next t ∧ EndedAs t c.key c.status flags ∧
        t.num a 4 = (storeElem (storeFmtOf s c) (row * pNExt c.desc + col) (af48Val (BitVec.ofNat 48 x))).1 % 2 ^ 32 ∧
        (∀ b, b < a ∨ a + 4 ≤ b → t.byte b = s.byte b) ∧ t = { s with
            cmds := t.cmds, dyCache := t.dyCache, groups := t.groups, mem := t.mem, mreqs := t.mreqs, staged := t.staged
            sts := t.sts, mwait := t.mwait }

/-- A PLAIN of one row and one output of dense operands, alone on its idle array with its operands held and screened, runs through its K-blocks,
however many, patch by patch, stores the canonical sum of its terms converted by the store's format, and ends OK. -/
def Obligations.PlainStoresItsCanonicalSum : Prop :=
  ∀ (r : CmdRef) (s : State) (c : Cmd) (lane array : Nat), Ready s (refKey r) c → s.cmds = [c] → dOp c.desc = 0x02 → array < 24 →
    c.items = [⟨.stat, 0, 0, lane, array, .todo⟩] → c.pack = [] → c.guard = none → c.sieve = [] → c.trapRow = none → c.aux = [] →
    c.lat.policy = 0 → c.hoff = false → c.status = 0 → dTags c.desc = 0 → pSform c.desc = false → pToGroup c.desc = false →
    pM c.desc = 1 → pNExt c.desc = 1 → 1 ≤ pKExt c.desc → c.screened = 1 →
    arrayPower s = true → failedArray s array = false → arrayOf s array = { arrayReset with on := true } →
    (∀ b, b ≠ array → arrayOf s b = { arrayReset with on := (arrayOf s b).on }) →
    s.folds = [] → s.hod = [] → s.images = [] → s.mreqs = [] → s.mwait = [] →
    (∀ kb < ceilDiv (pKExt c.desc) 256, ∀ b ∈ [(⟨1, 0, 0, kb⟩ : Blk), ⟨7, 0, kb, 0⟩], blkAsked s c (array / 4) b = true) →
    let l := layoutAt s c.outRec
    let v := coreView s c (array / 4)
    let sum := (kStages v c (statK v c) [0]).foldl (fun x kbs => pathSum v c 0 (stageCells v c (statK v c) kbs 0) x) 0
    disjointLayout l = true → l.mx = false → axisRow l 0 = false → layoutBits l = 32 →
    ∃ t flags, exec (.plain r) s = .next t ∧ EndedAs t c.key stOK flags ∧
      t.num (elemAddr l 0 0).1 4 = (storeElem (storeFmtOf s c) 0 (af48Val sum)).1 % 2 ^ 32

/-- Screening a row that took part so far: it takes part no longer when its tag has a reserved bit, or names a slot other than 0xFFF that is
CANCELLED or QUARANTINED or has another generation, or when it holds a NaN or Inf under QUARANTINE or TRAP; without tags it takes part under IEEE and
MEND; and no other row is judged with it (R222, R225, R68).
LEDGER_VIEW gives a command that needs one its view of the ledger as it stands, once every earlier quarantining command of its queue has
screened its rows; until then nothing happens (log 4). -/
def Obligations.LedgerViewsScreenRows : Prop :=
  (∀ (v s : State) (bs : List (Nat × Blk)) (c : Cmd) (row : Nat), rowPart c row = true →
     let t := tagOf v c.desc row
     let x := tget lslotReset (viewOf s c) (tagSlot t)
     let after := (screenRow v bs row (s, c)).2
     (tagReserved t = true → rowPart after row = false) ∧
     (tagSlot t ≠ 0xFFF → x.state = 1 ∨ x.state = 2 ∨ tagGen t ≠ x.gen → rowPart after row = false) ∧
     (c.lat.policy = 1 ∨ c.lat.policy = 2 → (∃ op ∈ screenedOps c.desc, rowBad v c.desc op row ≠ []) → rowPart after row = false) ∧
     (dTags c.desc = 0 → c.lat.policy = 0 ∨ c.lat.policy = 3 → rowPart after row = true) ∧
     (∀ q, q ≠ row → rowPart after q = rowPart c q)) ∧
  ∀ (r : CmdRef) (s : State) (c : Cmd), Ready s (refKey r) c → takesView c.desc = true → c.view = none →
    (viewReady s c = true → ∃ t, exec (.ledgerView r) s = .next t ∧ findCmd t c.key = some { c with view := some s.ledger } ∧
      Others s t c.key ∧ t = { s with cmds := t.cmds }) ∧
    (viewReady s c = false → exec (.ledgerView r) s = .next s)

/-! ### The Sieve and COMPRESS (08) -/

/-- SIEVE: it guards a next command of its queue that is a PLAIN, DX or DW without PACK and WAIT (log 76), and waits for its decisions; with another
next command, or none while the queue drains (log 23), it ends with BAD_SEQ; while the next command is not known it waits.
SIEVE_DECISION decides the next tile of the guarded command, and what it marks skipped is done without running; the decision on the last tile ends
the SIEVE with OK. A guarded command that traps or fails ends it without a report; one that has ended otherwise leaves the report of the tiles
decided (log 23). -/
def Obligations.SieveGuardsAndReports : Prop :=
  (∀ (r : CmdRef) (s : State) (c : Cmd), findCmd s (refKey r) = some c → runnable s c = true → dOp c.desc = 0x10 → s.wbuf = [] → s.rbuf = [] →
     (∀ d, nextDesc s c = some d → (dOp d = 2 ∨ dOp d = 3 ∨ dOp d = 4) → dPack d = false → dWait d = false →
       ∃ t, exec (.sieve r) s = .next t ∧ Begins s t c ∧ t = { s with cmds := t.cmds }) ∧
     (∀ d, nextDesc s c = some d → (dOp d ≠ 2 ∧ dOp d ≠ 3 ∧ dOp d ≠ 4) ∨ dPack d = true ∨ dWait d = true →
       ∃ t, exec (.sieve r) s = .next t ∧ Ended s t c stBadSeq 0 0 ∧ t = { s with cmds := t.cmds }) ∧
     (nextDesc s c = none → (queueOf s c.q).state = .draining →
       ∃ t, exec (.sieve r) s = .next t ∧ Ended s t c stBadSeq 0 0 ∧ t = { s with cmds := t.cmds }) ∧
     (nextDesc s c = none → (queueOf s c.q).state ≠ .draining → exec (.sieve r) s = .next s)) ∧
  ∀ (r : CmdRef) (s : State) (sv gc : Cmd), findCmd s (refKey r) = some sv → unitsRun s = true → dOp sv.desc = 0x10 →
    sv.phase = .started ∨ sv.phase = .begun → s.wbuf = [] → s.rbuf = [] → s.ras.damage = [] → s.ras.lost = [] →
    s.cmds.find? (fun c => c.guard == some sv.key) = some gc → findCmd s gc.key = some gc → gc.key ≠ sv.key →
    (gc.trapRow ≠ none ∨ gc.errs ≠ [] → ∃ t, exec (.sieveDecision r) s = .next t ∧ Ended s t sv stOK 0 0 ∧ t = { s with
        cmds := t.cmds }) ∧
    (gc.trapRow = none → gc.errs = [] → gc.phase ≠ .started → dNum sv.desc 0x28 8 = 0 →
      ∃ t, exec (.sieveDecision r) s = .next t ∧ Ended s t sv stOK 0 0 ∧ t.num (dNum sv.desc 0x20 8) 4 = 0x53565250 ∧
        t.num (dNum sv.desc 0x20 8 + 4) 4 = dStamp gc.desc ∧ t.num (dNum sv.desc 0x20 8 + 8) 4 = gc.fetched % 2 ^ 32 ∧
        (∀ a, a < dNum sv.desc 0x20 8 ∨ dNum sv.desc 0x20 8 + 64 ≤ a → t.byte a = s.byte a) ∧
        StatusKept s t [0x0A] ∧ t = { s with cmds := t.cmds, mem := t.mem, mreqs := t.mreqs, sts := t.sts, mwait := t.mwait }) ∧
    (gc.trapRow = none → gc.errs = [] → gc.phase = .started → decideReady s gc = true →
      let n := gc.fetched
      let tiles := (sieveGrid gc).1 * (sieveGrid gc).2
      let core := ((gc.items.find? (isTile (n / (sieveGrid gc).2) (n % (sieveGrid gc).2))).map (fun i => i.array / 4)).getD 0
      let mark := (decideTile (coreView s gc core) gc (n / (sieveGrid gc).2) (n % (sieveGrid gc).2)).1
      ∃ t x, exec (.sieveDecision r) s = .next t ∧ findCmd t gc.key = some x ∧ x.fetched = n + 1 ∧
        tget .compute x.sieve n = mark ∧ (∀ m, m ≠ n → tget .compute x.sieve m = tget .compute gc.sieve m) ∧
        (mark = .skipped → ∀ y ∈ x.items, y.r = n / (sieveGrid gc).2 → y.c = n % (sieveGrid gc).2 → y.st = .done) ∧
        (n + 1 = tiles → EndedAs t sv.key stOK sv.flags) ∧
        (n + 1 ≠ tiles → (∃ y, findCmd t sv.key = some y ∧ y.phase = sv.phase) ∧ t.mem = s.mem) ∧
        (∀ j, j ≠ sv.key → j ≠ gc.key → findCmd t j = findCmd s j) ∧
        (∀ a, (a < dNum sv.desc 0x20 8 ∨ dNum sv.desc 0x20 8 + 64 ≤ a) →
          (dNum sv.desc 0x28 8 = 0 ∨ a < dNum sv.desc 0x28 8 ∨ dNum sv.desc 0x28 8 + ceilDiv tiles 8 ≤ a) → t.byte a = s.byte a) ∧
        StatusKept s t [0x0A] ∧ t = { s with cmds := t.cmds, mem := t.mem, mreqs := t.mreqs, sts := t.sts, mwait := t.mwait })

/-- COMPRESS in its turn writes its tile table, marked valid exactly when every tile found room, ends OK then and with NO_SPACE otherwise, writes no
byte outside the table and the room for the tiles, and leaves in memory what its run laid down. -/
def Obligations.CompressWritesItsTable : Prop :=
  ∀ (r : CmdRef) (s : State) (c : Cmd), Ready s (refKey r) c → dOp c.desc = 0x11 → unitTurn s c (isOp 0x11) = true →
    let v := readView s c.key 7
    let tab := dNum c.desc 0x28 8
    let l := layoutAt v (dNum c.desc 0x20 8)
    let n := ceilDiv (axisExtent l true) 256 * ceilDiv (axisExtent l false) 256
    let fits := (compressRun v c.desc).2
    ∃ t, exec (.compress r) s = .next t ∧ Ended s t c (if fits then stOK else stNoSpace) 0 0 ∧
      t.num tab 4 = 0x54544246 ∧ t.num (tab + 0x14) 1 = (if fits then 1 else 0) ∧
      (∀ a, (a < tab ∨ tab + 64 + 8 * n ≤ a) → (a < dNum c.desc 0x30 8 ∨ dNum c.desc 0x30 8 + dNum c.desc 0x38 8 ≤ a) → t.byte a = s.byte a) ∧
      (∀ w ∈ (compressRun v c.desc).1.wbuf, t.byte w.1 = (compressRun v c.desc).1.byte w.1) ∧
      StatusKept s t [0x0A] ∧ t = { s with cmds := t.cmds, mem := t.mem, mreqs := t.mreqs, sts := t.sts, mwait := t.mwait }

/-! ### GATHER and SCATTER (09) -/

/-- The index policies: an index in range is used under all; a negative one down to −E wraps under WRAP and is otherwise refused by the
policy, and any other is never used.
GATHER and the forms of SCATTER in the unit's turn (R242): the pre-scan's read; then for each window its indices with their tags, its rows once the
ledger view can be taken, and its commit once the window before is acknowledged and its group can be written. A commit of the forms to memory
changes no group, tile or frame; SCATTER writes no byte outside the table rows its indices name, GATHER none outside its dense array; the last
commit ends the command, and an earlier one leaves it at work, unless the screen traps. A SCATTER STORE of one FP32 element without tags stores it
converted. Under FAULT an index out of range refuses the command with IDX_FAULT, RESULT and FAULT_POS the lowest such row, and nothing else changes.
-/
def Obligations.GatherAndScatterRun : Prop :=
  (∀ (policy rows : Nat) (i : Int), policy ≤ 2 →
     (0 ≤ i → i < rows → idxRow policy rows i = some i.toNat) ∧
     (-rows ≤ i → i < 0 → idxRow policy rows i = if policy = 1 then some (i + rows).toNat else none) ∧
     (i < -rows ∨ rows ≤ i → idxRow policy rows i = none)) ∧
  ∀ (r : CmdRef) (s : State) (c : Cmd) (i : Instr), Ready s (refKey r) c → scaTurn s c = true →
    (dOp c.desc = 0x18 ∧ i = .gather r ∨ dOp c.desc = 0x19 ∧ gAccum c.desc = false ∧ i = .scatterStore r ∨
      dOp c.desc = 0x19 ∧ gAccum c.desc = true ∧ gToGroup c.desc = false ∧ i = .scatterAccum r ∨
      dOp c.desc = 0x19 ∧ gAccum c.desc = true ∧ gToGroup c.desc = true ∧ i = .scatterAccumGroup r) →
    let v := readView s c.key 7
    let w := c.window
    let toMemory := ¬ (dOp c.desc = 0x19 ∧ gAccum c.desc = true ∧ gToGroup c.desc = true)
    (c.asked = 0 → ∃ t, exec i s = .next t ∧ findCmd t c.key = some { c with asked := 1 } ∧ Others s t c.key ∧ StatusKept s t [0x0B] ∧
      t = { s with cmds := t.cmds, mreqs := t.mreqs, sts := t.sts, mwait := t.mwait }) ∧
    (c.asked = 1 + 2 * w → c.lat.idxPolicy ≠ 2 ∨ w ≠ 0 ∨ idxFault v c.desc = none →
      ∃ t, exec i s = .next t ∧ findCmd t c.key = some { c with asked := c.asked + 1 } ∧ Others s t c.key ∧ StatusKept s t [0x0B] ∧
        t = { s with cmds := t.cmds, mreqs := t.mreqs, sts := t.sts, mwait := t.mwait }) ∧
    (∀ row, c.asked = 1 + 2 * w → c.lat.idxPolicy = 2 → w = 0 → idxFault v c.desc = some row →
      ∃ t, exec i s = .next t ∧ Ended s t c stIdxFault 0 row ∧ rd t scaFaultPosPos = row % 2 ^ scaFaultPosPos.width ∧
        (∀ e < row, (idxRow 2 (gTrows c.desc) (idxAt v c.desc e)).isSome = true) ∧
        StatusKept s t [0x04, 0x0B] ∧ t = { s with cmds := t.cmds, sts := t.sts, trace := t.trace, cport := t.cport }) ∧
    (c.asked = 2 + 2 * w → canScreen s c = true → gAccum c.desc = false ∨ writesPending s c.key = false →
      ∃ t, exec i s = .next t ∧ Others s t c.key ∧ StatusKept s t [0x0B] ∧ t = { s with
          cmds := t.cmds, mreqs := t.mreqs, sts := t.sts, mwait := t.mwait } ∧
        findCmd t c.key = some { c with
          asked := c.asked + 1, view := if c.view.isNone && takesView c.desc then some s.ledger else c.view }) ∧
    (c.asked = 2 + 2 * w → canScreen s c = false ∨ gAccum c.desc = true ∧ writesPending s c.key = true → exec i s = .next s) ∧
    (c.asked = 3 + 2 * w → scaCommits s c = false → exec i s = .next s) ∧
    (c.asked = 3 + 2 * w → scaCommits s c = true →
      ∃ t x, exec i s = .next t ∧ findCmd t c.key = some x ∧ x.window = w + 1 ∧ Others s t c.key ∧
        (c.lat.policy ≠ 2 → x.phase = if scaWindows c.desc ≤ w + 1 then .ended else .started) ∧
        (toMemory → c.lat.policy ≠ 2 → x.status = c.status) ∧
        (toMemory → t.groups = s.groups ∧ t.tiles = s.tiles ∧ t.frames = s.frames ∧ t.clock = s.clock) ∧
        (dOp c.desc = 0x19 → toMemory →
          ∀ a, (∀ row < gN c.desc, ∀ q < gCols c.desc, ∀ k, idxRow c.lat.idxPolicy (gTrows c.desc) (idxAt v c.desc row) = some k →
            a < tableAddr c.desc k q ∨ tableAddr c.desc k q + codeBits (gTfmt c.desc) / 8 ≤ a) → t.byte a = s.byte a) ∧
        (dOp c.desc = 0x18 → (gDense v c.desc).mx = false →
          ∀ a, Outside (gDense v c.desc) (gN c.desc) (gCols c.desc) a → t.byte a = s.byte a) ∧
        (∀ k, dOp c.desc = 0x19 → gAccum c.desc = false → gN c.desc = 1 → gCols c.desc = 1 → w = 0 → gTfmt c.desc = 0 → dTags c.desc = 0 →
          c.lat.policy = 0 → idxRow c.lat.idxPolicy (gTrows c.desc) (idxAt v c.desc 0) = some k →
          t.num (tableAddr c.desc k 0) 4 = (storeElem (scaFmt c 0) k (movedVal v c 0 k 0)).1 % 2 ^ 32) ∧
        StatusKept s t [0x04, 0x06, 0x08, 0x09, 0x0B] ∧
        t = { s with
            cmds := t.cmds, groups := t.groups, tiles := t.tiles, frames := t.frames, clock := t.clock, ledger := t.ledger
            mem := t.mem, mreqs := t.mreqs, staged := t.staged, sts := t.sts, trace := t.trace, cport := t.cport
            mwait := t.mwait })

/-- SCA_WINDOW commits the window of a GATHER or SCATTER whose rows have been read, once the writes of the window before are acknowledged: unless
the screen traps, WINDOW advances by one and the command goes on while windows remain, and ends with the last; before its rows have been read, and
until the acknowledgements have come, nothing happens (log 4). -/
def Obligations.WindowsRunOneByOne : Prop :=
  ∀ (r : CmdRef) (s : State) (c : Cmd), Ready s (refKey r) c → dOp c.desc = 0x18 ∨ dOp c.desc = 0x19 → scaTurn s c = true →
    (c.asked ≠ 3 + 2 * c.window → exec (.scaWindow r) s = .next s) ∧
    (c.asked = 3 + 2 * c.window → writesPending s c.key = true → exec (.scaWindow r) s = .next s) ∧
    (c.asked = 3 + 2 * c.window → scaCommits s c = true → c.lat.policy ≠ 2 →
      ∃ t x, exec (.scaWindow r) s = .next t ∧ findCmd t c.key = some x ∧ x.window = c.window + 1 ∧
        x.phase = (if c.window + 1 < scaWindows c.desc then .started else .ended) ∧
        Others s t c.key ∧ t = { s with
            cmds := t.cmds, groups := t.groups, tiles := t.tiles, frames := t.frames, clock := t.clock, ledger := t.ledger
            mem := t.mem, mreqs := t.mreqs, staged := t.staged, sts := t.sts, trace := t.trace, cport := t.cport
            mwait := t.mwait })

/-! ### Reduction staging (10) -/

/-- SEND CONTRIB, PARAMS and CHAIN whose group, where they read one, has the latched GEN, hand packets of their own KIND, JOB and STEP over
to the ports and wait for the statuses; a SEND PARAMS first reads its shard, once the APPLYs before it have had their effect, and of a job of one
rank ends OK. With another GEN they end with GROUP_RESET or ABANDONED and send nothing. Only the digest table and, for CONTRIB, the staged
residuals are written; of the tiles only the note of the access changes (R164). -/
def Obligations.SendsHandOverTheirPackets : Prop :=
  ∀ (r : CmdRef) (s : State) (c : Cmd) (mode : Nat) (i : Instr), Ready s (refKey r) c → dOp c.desc = 0x20 → rsMode c.desc = mode →
    (mode, i) ∈ [(0, Instr.sendContrib r), (1, .sendParams r), (2, .sendChain r)] →
    groupBusy s (rsGroup c.desc) = false → groupBusy s 64 = false → (∀ x ∈ s.txState, x.key ≠ c.key) →
    let j := jobOf (readView s c.key 7) c
    let x := groupOf s (rsGroup c.desc)
    let reads := mode = 2 ∨ (mode = 0 ∧ rsEmpty c.desc = false)
    (mode = 1 → applyBefore s c = true → exec i s = .next s) ∧
    (mode = 1 → applyBefore s c = false → c.asked = 0 →
      ∃ t, exec i s = .next t ∧ findCmd t c.key = some { c with asked := 1 } ∧ Others s t c.key ∧ t = { s with
          cmds := t.cmds, mreqs := t.mreqs, mwait := t.mwait }) ∧
    (¬ (reads ∧ x.gen ≠ genOf c (rsGroup c.desc)) → 1 ≤ j.shards → (mode = 1 → 2 ≤ j.shards ∧ applyBefore s c = false ∧ c.asked ≠ 0) →
      ∃ t y l, exec i s = .next t ∧ findCmd t c.key = some y ∧ y.phase = .begun ∧ Others s t c.key ∧ l ≠ [] ∧ t.txq = s.txq ++ l ∧
        (∀ p ∈ l, p.key = c.key ∧ p.vc = 1 ∧ hJob p.bytes = j.id % 2 ^ 16 ∧ hStep p.bytes = dStep c.desc ∧
          hKind p.bytes = if mode = 0 then 1 else if mode = 1 then 3 else 4) ∧
        (∀ a, (rsDigests c.desc = 0 ∨ a < rsDigests c.desc ∨ rsDigests c.desc + 16 * j.shards ≤ a) →
          (mode ≠ 0 ∨ j.res = 0 ∨ a < residualAddr j (1 - s.epoch.parity) 0 0 ∨
            residualAddr j (1 - s.epoch.parity) 0 0 + j.tiles * 524288 ≤ a) → t.byte a = s.byte a) ∧
        Accessed s t (rsGroup c.desc) ∧ StatusKept s t [0x04, 0x0C] ∧
        t = { s with
            cmds := t.cmds, mem := t.mem, mreqs := t.mreqs, tiles := t.tiles, clock := t.clock, txq := t.txq
            txState := t.txState, free := t.free, sts := t.sts, trace := t.trace, cport := t.cport, mwait := t.mwait }) ∧
    (mode = 1 → applyBefore s c = false → c.asked ≠ 0 → j.shards = 1 → j.mine = 0 →
      ∃ t, exec i s = .next t ∧ Ended s t c stOK 0 0 ∧ t = { s with
          cmds := t.cmds, mem := t.mem, mreqs := t.mreqs, mwait := t.mwait }) ∧
    (reads ∧ x.gen ≠ genOf c (rsGroup c.desc) →
      ∃ t, exec i s = .next t ∧ Ended s t c (resetStatus x) 0 0 ∧ Accessed s t (rsGroup c.desc) ∧ t = { s with
          cmds := t.cmds, tiles := t.tiles, clock := t.clock })

/-- PACKET_SEND: the packet that leaves takes an ID that no awaited packet of the port has, and awaits its status; a waiting snapshot packet
goes before a reduction packet. With none waiting, nothing happens (log 4).
FPORT_STATUS: the packet it names awaits no longer, and the last status of a SEND ends it, with OK, or with FPORT_ERROR when its one packet
failed; a status for no packet sets PORT_PROTO, but for the port cycles after a WRST_N that lost packets. -/
def Obligations.PacketsLeaveAndAreAnswered : Prop :=
  (∀ (port : BitVec 2) (s : State), unitsRun s = true → s.wbuf = [] → s.rbuf = [] →
     ((∀ u ∈ s.txq, u.port ≠ port.toNat) → exec (.packetSend port) s = .next s) ∧
     ((∃ u ∈ s.txq, u.port = port.toNat) → (s.txAwait.filter (fun u => u.port == port.toNat)).length < 4096 →
       ∃ t p n, exec (.packetSend port) s = .next t ∧ p ∈ s.txq ∧ p.port = port.toNat ∧ t.txq = s.txq.erase p ∧
         t.txAwait = s.txAwait ++ [{ p with pid := n }] ∧ n < 4096 ∧ (∀ u ∈ s.txAwait, u.port = port.toNat → u.pid ≠ n) ∧
         ((∃ u ∈ s.txq, u.port = port.toNat ∧ u.vc = 0) → p.vc = 0) ∧ StatusKept s t [0x0C] ∧ t = { s with
             txq := t.txq, txAwait := t.txAwait, sts := t.sts })) ∧
  ∀ (port : BitVec 2) (pid : BitVec 12) (error : Bool) (s : State), awake s = true → portClock s = true → s.wbuf = [] → s.rbuf = [] →
    let hit := s.txAwait.find? (fun t => t.port == port.toNat && t.pid == pid.toNat)
    (∀ p, hit = some p → ∃ t, exec (.fportStatus port pid error) s = .next t ∧ t.txAwait = s.txAwait.erase p ∧
      Others s t p.key ∧ StatusKept s t [0x04, 0x0C] ∧ t = { s with
          cmds := t.cmds, txq := t.txq, txAwait := t.txAwait, txState := t.txState, sts := t.sts, trace := t.trace
          cport := t.cport }) ∧
    (∀ p c, hit = some p → findCmd s p.key = some c → c.phase = .begun → dOp c.desc = 0x20 → c.errs = [] →
      s.txState = [⟨p.key, p.num, 1, false⟩] → ∃ t, exec (.fportStatus port pid error) s = .next t ∧
        Ended s t c (if error then stFportError else stOK) 0 0 ∧ t.txState = []) ∧
    (hit = none → s.quiet = 0 → ∃ t, exec (.fportStatus port pid error) s = .next t ∧ bitOf (rd t (hdrEvt 0x00)) 11 = true ∧
      StatusKept s t [0x00, 0x04] ∧ t = { s with sts := t.sts, trace := t.trace, cport := t.cport }) ∧
    (hit = none → s.quiet ≠ 0 → exec (.fportStatus port pid error) s = .next s)

/-- FPORT_RECEIVE: a malformed packet, one whose length is not its header's among them (log 27), is answered with REJECT; one that no open or
remembered context matches with RETRY; one of a remembered context, or of a number already accepted, with ACCEPT and dropped; a new packet of an
open context is accepted and counted. Only the answer, the counters and, for an accepted packet, what its RECV writes change. -/
def Obligations.PacketsAreAnswered : Prop :=
  ∀ (port : BitVec 2) (pid : BitVec 12) (b : List Byte) (s : State), unitsRun s = true → s.wbuf = [] → s.rbuf = [] →
    let answers := fun (t : State) (code : Nat) => tfind t.frs port.toNat = some (pid.toNat, code)
    let open' := s.rxOpen.find? (fun x => rxMatches x.kind x.job x.step x.rank b)
    let known := s.rxClosed.any (fun x => rxMatches (x.1 / 2 ^ 16) (x.1 % 2 ^ 16) x.2.1 x.2.2 b)
    (packetBad s b = true → ∃ t, exec (.fportReceive port pid b) s = .next t ∧ answers t frsReject ∧
      rd t rsuNoctxCount = satAdd rsuNoctxCount.width (rd s rsuNoctxCount) 1 ∧ StatusKept s t [0x0C] ∧ t = { s with
          frs := t.frs, sts := t.sts }) ∧
    (packetBad s b = false → open' = none → known = false → ∃ t, exec (.fportReceive port pid b) s = .next t ∧ answers t frsRetry ∧
      rd t rsuNoctxCount = satAdd rsuNoctxCount.width (rd s rsuNoctxCount) 1 ∧ StatusKept s t [0x0C] ∧ t = { s with
          frs := t.frs, sts := t.sts }) ∧
    (packetBad s b = false → open' = none → known = true → ∃ t, exec (.fportReceive port pid b) s = .next t ∧ answers t frsAccept ∧
      rd t rsuDupsCount = satAdd rsuDupsCount.width (rd s rsuDupsCount) 1 ∧ StatusKept s t [0x0C] ∧ t = { s with
          frs := t.frs, sts := t.sts }) ∧
    (∀ x y c, packetBad s b = false → open' = some x → findCmd s x.key = some c →
      x.sources.find? (fun y => y.rank == hSrc b) = some y → y.npkt = hNpkt b → y.pkts.any (fun p => p.1 == hSeq b) = true →
      ∃ t, exec (.fportReceive port pid b) s = .next t ∧ answers t frsAccept ∧
        rd t rsuDupsCount = satAdd rsuDupsCount.width (rd s rsuDupsCount) 1 ∧ StatusKept s t [0x0C] ∧ t = { s with
            frs := t.frs, sts := t.sts }) ∧
    (∀ x c, packetBad s b = false → open' = some x → findCmd s x.key = some c → s.ras.damage = [] → s.ras.lost = [] →
      (∀ y, x.sources.find? (fun y => y.rank == hSrc b) = some y →
        y.npkt = hNpkt b ∧ y.pkts.any (fun p => p.1 == hSeq b) = false) →
      ∃ t, exec (.fportReceive port pid b) s = .next t ∧ answers t frsAccept ∧ Others s t x.key ∧
        rd t rsuPktRecvCount = satAdd rsuPktRecvCount.width (rd s rsuPktRecvCount) 1 ∧
        StatusKept s t [0x04, 0x09, 0x0C] ∧
        t = { s with
            cmds := t.cmds, clock := t.clock, frames := t.frames, frs := t.frs, groups := t.groups, mem := t.mem
            mreqs := t.mreqs, rxClosed := t.rxClosed, rxOpen := t.rxOpen, sts := t.sts, tiles := t.tiles, trace := t.trace
            cport := t.cport, mwait := t.mwait })

/-- Each RECV opens a receive context for its KIND, job, step and rank in its turn and waits for packets; a RECV PARAMS of a job of one rank
ends OK. An open one for which nothing has arrived goes on waiting.
RECV_WAIT sets RECV_WAIT once for a RECV that has not ended, while LIMIT_MS is not 0; then it does nothing. -/
def Obligations.RecvOpensItsContext : Prop :=
  (∀ (r : CmdRef) (s : State) (c : Cmd) (mode : Nat) (i : Instr), dOp c.desc = 0x21 → rsMode c.desc = mode →
     (mode, i) ∈ [(0, Instr.recvReduced r), (1, .recvParams r), (2, .recvChainAdd r), (3, .recvChainSet r)] →
     let j := jobOf (readView s c.key 7) c
     (Ready s (refKey r) c → ctxTurn s c = true → mode ≠ 1 ∨ j.shards ≠ 1 → ∃ t, exec i s = .next t ∧ Begins s t c ∧
       t.rxOpen = s.rxOpen ++ [⟨c.key, if mode = 0 then 2 else if mode = 1 then 3 else 4, j.id, dStep c.desc,
         if mode < 2 then j.mine else rsPeer c.desc, [], [], []⟩] ∧ t = { s with cmds := t.cmds, rxOpen := t.rxOpen }) ∧
     (Ready s (refKey r) c → ctxTurn s c = true → mode = 1 → j.shards = 1 → ∃ t, exec i s = .next t ∧ Ended s t c stOK 0 0 ∧
       (∀ a, rsDigests c.desc = 0 ∨ a < rsDigests c.desc ∨ rsDigests c.desc + 16 ≤ a → t.byte a = s.byte a) ∧ t = { s with
           cmds := t.cmds, mem := t.mem, mreqs := t.mreqs, mwait := t.mwait }) ∧
     (Begun s (refKey r) c → mode ≠ 1 → (∀ x ∈ s.rxOpen, x.key = c.key → x.waits = [] ∧ x.sources = []) → exec i s = .next s)) ∧
  ∀ (r : CmdRef) (s : State) (c : Cmd), findCmd s (refKey r) = some c → unitsRun s = true → s.wbuf = [] → s.rbuf = [] → dOp c.desc = 0x21 →
    c.phase = .started ∨ c.phase = .begun →
    (c.window = 0 → rd s rsuRecvWdogLimitMs ≠ 0 →
      ∃ t, exec (.recvWait r) s = .next t ∧ findCmd t c.key = some { c with window := 1 } ∧ Others s t c.key ∧
        bitOf (rd t (hdrEvt 0x0C)) 8 = true ∧ exec (.recvWait r) t = .next t ∧
        StatusKept s t [0x04, 0x0C] ∧ t = { s with cmds := t.cmds, sts := t.sts, trace := t.trace, cport := t.cport }) ∧
    (c.window ≠ 0 ∨ rd s rsuRecvWdogLimitMs = 0 → exec (.recvWait r) s = .next s)

/-! ### The update applier and the epoch (11) -/

/-- APPLY into staged copies, and APPLY COPY, in their turn: they end OK, count the entries of the shard, and write no byte outside the staged
master weights and moments of the shard and the staged working copy, where that is not MX; an APPLY of a group with another GEN ends with
GROUP_RESET or ABANDONED. -/
def Obligations.ApplyWritesStagedCopies : Prop :=
  ∀ (r : CmdRef) (s : State) (c : Cmd) (i : Instr), Ready s (refKey r) c → dOp c.desc = 0x22 →
    (apOpt c.desc ≠ 4 ∧ i = .apply r ∨ apOpt c.desc = 4 ∧ i = .applyCopy r) → groupBusy s (apGroup c.desc) = false →
    unitTurn s c (applyReady s) = true →
    let v := readView s c.key 7
    let j := applyJob v c
    let p := paramOf v c
    let par := 1 - s.epoch.parity
    let l := stagedCopy v j
    (apOpt c.desc = 4 ∨ (groupOf s (apGroup c.desc)).gen = genOf c (apGroup c.desc) →
      ∃ t flags, exec i s = .next t ∧ EndedAs t c.key stOK flags ∧ Others s t c.key ∧
        rd t updElemsCount = satAdd updElemsCount.width (rd s updElemsCount) (shardEntries j).length ∧
        ((∃ x ∈ s.cmds, (tfind x.recs (j.wrec par)).isSome = true) → l.mx = false →
          ∀ a, (∀ e ∈ shardEntries j, ∀ b ∈ [p.w, p.m, p.v], a < copyOf b par + shardOff j e ∨ copyOf b par + shardOff j e + 4 ≤ a) →
            Outside l j.rows j.cols a → t.byte a = s.byte a) ∧
        Accessed s t (apGroup c.desc) ∧ StatusKept s t [0x04, 0x0D] ∧ t = { s with
            cmds := t.cmds, mem := t.mem, mreqs := t.mreqs, tiles := t.tiles, clock := t.clock, sts := t.sts, trace := t.trace
            cport := t.cport, mwait := t.mwait }) ∧
    (apOpt c.desc ≠ 4 → (groupOf s (apGroup c.desc)).gen ≠ genOf c (apGroup c.desc) →
      ∃ t, exec i s = .next t ∧ Ended s t c (resetStatus (groupOf s (apGroup c.desc))) 0 0 ∧ Accessed s t (apGroup c.desc) ∧
        t = { s with cmds := t.cmds, tiles := t.tiles, clock := t.clock })

/-- One entry of SGD without weight decay: g is the scaled gradient, the new weight the old less LR times g, each rounded to FP32, and the
moments stay. Under ADAMW the moments are the rounded running means of g and of its square. -/
def Obligations.UpdatesOfOneEntry : Prop :=
  ∀ (h : Hyper) (sv : Val) (w m v : Nat),
    let g := f32Round (mulVal sv (f32Val h.gscale))
    ((f32Val h.wd).isZero = true → (updateEntry 0 h sv w m v).g = g ∧ (updateEntry 0 h sv w m v).w = f32Sub w (f32Mul h.lr g) ∧
      (updateEntry 0 h sv w m v).m = m ∧ (updateEntry 0 h sv w m v).v = v) ∧
    (updateEntry 3 h sv w m v).m = f32Add (f32Mul h.b1 m) (f32Mul h.ob1 g) ∧
    (updateEntry 3 h sv w m v).v = f32Add (f32Mul h.b2 v) (f32Mul (f32Mul h.ob2 g) g)

/-- COMMIT of the step after the committed one begins to wait, and any other step ends with STEP_COMMITTED or BAD_STEP and the committed step
in RESULT; EPOCH_FLIP then refuses with INCOMPLETE or POISONED, which change nothing of the epoch but its state, or flips: parity, step and
statistics change over, the counts are 0, FLIP is set. While staging commands of its step have not completed, and for the flip while a SNAP
holds the epoch (R329), it waits. -/
def Obligations.CommitFlipsTheEpoch : Prop :=
  (∀ (r : CmdRef) (s : State) (c : Cmd), Ready s (refKey r) c → dOp c.desc = 0x23 → epochOpen s = true →
    (dStep c.desc = nextStep s → ∃ t w, exec (.commit r) s = .next t ∧ findCmd t c.key = some { c with phase := .begun, window := w } ∧
      Others s t c.key ∧ t.epoch = { s.epoch with state := .committing, waiting := c.key } ∧ t = { s with
          cmds := t.cmds, epoch := t.epoch }) ∧
    (dStep c.desc ≠ nextStep s → ∃ t, exec (.commit r) s = .next t ∧
      Ended s t c (if dStep c.desc ≤ s.epoch.step then stStepCommitted else stBadStep)
        (if s.epoch.parity = 1 then flParity else 0) s.epoch.step ∧ t = { s with cmds := t.cmds })) ∧
  ∀ (r : CmdRef) (s : State) (c : Cmd), Begun s (refKey r) c → dOp c.desc = 0x23 → s.epoch.state = .committing →
    s.epoch.waiting = c.key →
    let runs := stagingRuns s (dStep c.desc)
    let enough := s.epoch.applied = dNum c.desc 0x20 2 ∧ s.epoch.params = dNum c.desc 0x22 2
    let clean := bitOf (dNum c.desc 0x24 1) 0 = false ∨ s.epoch.poisoned = 0
    (runs = true ∨ enough ∧ clean ∧ epochHeld s = true → exec (.epochFlip r) s = .next s) ∧
    (runs = false → ¬ (enough ∧ clean) → ∃ t, exec (.epochFlip r) s = .next t ∧
      Ended s t c (if s.epoch.applied ≠ dNum c.desc 0x20 2 ∨ s.epoch.params ≠ dNum c.desc 0x22 2 then stIncomplete else stPoisoned)
        (if s.epoch.parity = 1 then flParity else 0) s.epoch.step ∧
      t.epoch = { s.epoch with state := if c.window = 1 then .staging else .stable, waiting := 0 } ∧ t = { s with
          cmds := t.cmds, epoch := t.epoch }) ∧
    (runs = false → enough → clean → evalOutstanding s = false → epochHeld s = false → s.epoch.parity ≤ 1 →
      ∃ t, exec (.epochFlip r) s = .next t ∧ Ended s t c stOK (if s.epoch.parity = 0 then flParity else 0) (nextStep s) ∧
        t.epoch.parity = 1 - s.epoch.parity ∧ t.epoch.step = nextStep s ∧ t.epoch.attempt = s.epoch.attempt ∧
        t.epoch.state = .stable ∧ t.epoch.applied = 0 ∧ t.epoch.params = 0 ∧ t.epoch.poisoned = 0 ∧ t.epoch.time = now s ∧
        t.statsCom = s.statsSt ∧ t.statsSt = [] ∧ bitOf (rd t (hdrEvt 0x0D)) 8 = true ∧
        (∀ id, (layerOf t id).comCounts = (layerOf s id).stCounts ∧
          (layerOf t id).stCounts = advCountsZero ∧ (layerOf t id).dxMask = (layerOf s id).dxMask) ∧
        StatusKept s t [0x04, 0x0D] ∧ t = { s with
            cmds := t.cmds, epoch := t.epoch, statsCom := t.statsCom, statsSt := t.statsSt, advisor := t.advisor, sts := t.sts
            trace := t.trace, cport := t.cport })

/-- ABANDON of the step after the committed one begins; unless a SNAP holds the epoch, and else once the hold is over (R329), it empties every group
of
that step, which is then OPEN with its GEN advanced and its tiles UNTOUCHED, stops the staging commands and RECVs of the step with ABANDONED, and
waits; ABANDON_DONE then advances ATTEMPT, clears the staged statistics and counts, leaves the epoch STABLE, sets ABANDON and ends OK, and waits
while a staging command works or its writes are not acknowledged. Any other step ends with STEP_COMMITTED or BAD_STEP. -/
def Obligations.AbandonEmptiesTheStep : Prop :=
  (∀ (r : CmdRef) (s : State) (c : Cmd), dOp c.desc = 0x24 → (∀ e ∈ s.cmds, e.key = c.key → e = c) →
    let empties := fun (t : State) =>
      (∀ g < 64, (groupOf s g).state ≠ .free → (groupOf s g).step = dStep c.desc →
        (groupOf t g).state = .open ∧ (groupOf t g).gen = ((groupOf s g).gen + 1) % 256 ∧ (groupOf t g).abandoned = true ∧
          ∀ k < 2 ^ 14, tileOf t g k = tileEmpty) ∧
      (∀ g < 64, (groupOf s g).state = .free ∨ (groupOf s g).step ≠ dStep c.desc → groupOf t g = groupOf s g) ∧
      (∀ e ∈ s.cmds, dStep e.desc = dStep c.desc → isStaging e.desc = true ∨ dOp e.desc = 0x21 → e.phase = .started ∨ e.phase = .begun →
        ∃ flags, EndedAs t e.key stAbandoned flags) ∧ StatusKept s t [0x09]
    (Ready s (refKey r) c → epochOpen s = true → dStep c.desc = nextStep s →
      (epochHeld s = false → ∃ t w, exec (.abandon r) s = .next t ∧ findCmd t c.key = some { c with phase := .begun, window := w, asked := 1 } ∧
        t.epoch = { s.epoch with state := .abandoning, waiting := c.key } ∧ empties t ∧
        t = { s with
            cmds := t.cmds, epoch := t.epoch, groups := t.groups, tiles := t.tiles, frames := t.frames, preloads := t.preloads
            rxOpen := t.rxOpen, rxClosed := t.rxClosed, txq := t.txq, txState := t.txState, sts := t.sts }) ∧
      (epochHeld s = true → ∃ t w, exec (.abandon r) s = .next t ∧ findCmd t c.key = some { c with phase := .begun, window := w } ∧
        Others s t c.key ∧ t.epoch = { s.epoch with state := .abandoning, waiting := c.key } ∧ t = { s with
            cmds := t.cmds, epoch := t.epoch })) ∧
    (Begun s (refKey r) c → c.errs = [] → s.ras.damage = [] → s.ras.lost = [] → c.asked = 0 → s.epoch.waiting = c.key → epochHeld s = false →
      ∃ t, exec (.abandon r) s = .next t ∧ findCmd t c.key = some { c with asked := 1 } ∧ empties t ∧
        t = { s with
            cmds := t.cmds, groups := t.groups, tiles := t.tiles, frames := t.frames, preloads := t.preloads
            rxOpen := t.rxOpen, rxClosed := t.rxClosed, txq := t.txq, txState := t.txState, sts := t.sts }) ∧
    (Ready s (refKey r) c → epochOpen s = true → dStep c.desc ≠ nextStep s → ∃ t, exec (.abandon r) s = .next t ∧
      Ended s t c (if dStep c.desc ≤ s.epoch.step then stStepCommitted else stBadStep)
        (if s.epoch.parity = 1 then flParity else 0) s.epoch.step ∧ t = { s with cmds := t.cmds })) ∧
  ∀ (r : CmdRef) (s : State) (c : Cmd), Begun s (refKey r) c → dOp c.desc = 0x24 → s.epoch.state = .abandoning →
    s.epoch.waiting = c.key →
    (stagingWorks s = true ∨ c.asked ≠ 1 → exec (.abandonDone r) s = .next s) ∧
    (stagingWorks s = false → c.asked = 1 → ∃ t, exec (.abandonDone r) s = .next t ∧
      Ended s t c stOK (if s.epoch.parity = 1 then flParity else 0) s.epoch.step ∧
      t.epoch = { s.epoch with
        attempt := (s.epoch.attempt + 1) % 256, state := .stable, waiting := 0, applied := 0, params := 0, poisoned := 0 } ∧
      t.statsSt = [] ∧ bitOf (rd t (hdrEvt 0x0D)) 9 = true ∧
      (∀ id, (layerOf t id).stCounts = advCountsZero ∧ (layerOf t id).live = (layerOf s id).live) ∧
      StatusKept s t [0x03, 0x04, 0x0D] ∧
      t = { s with
          cmds := t.cmds, epoch := t.epoch, statsSt := t.statsSt, advisor := t.advisor, sts := t.sts, trace := t.trace
          cport := t.cport, ras := { s.ras with lost := t.ras.lost } })

/-! ### Snapshots (13) -/

/-- SNAP, of a queue or fired, makes its captures one after the other (R328, R329). The first ends it with NO_SPACE where LIMIT_LEN is below the
bound of R331, and else takes CONFIG and the epoch and asks for the arrays of PARAMS. Then come PARAMS, the ledger, each group of the mask that is
not FREE in ascending order, which waits for the writers of its tiles and changes only the notes of their accesses (R164), and last the bindings, with
which the image leaves as packets on the virtual channel of snapshots: that no piece leaves before the last capture is the model's choice (log 9). -/
def Obligations.SnapCapturesItsImage : Prop :=
  (∀ (r : DoneRef) (s : State) (c : Cmd), Ready s (doneKey r) c → dOp c.desc = 0x28 → c.asked = 0 →
    let v := readView s c.key 7
    (snapBusy s c.key = true → exec (.snap r) s = .next s) ∧
    (snapBusy s c.key = false → snLimit c.desc < imageBound v c → ∃ t, exec (.snap r) s = .next t ∧ Ended s t c stNoSpace 0 0 ∧ t = { s with
        cmds := t.cmds }) ∧
    (snapBusy s c.key = false → imageBound v c ≤ snLimit c.desc →
      ∃ t x, exec (.snap r) s = .next t ∧ findCmd t c.key = some x ∧ x.phase = .begun ∧ x.asked = 1 ∧ x.desc = c.desc ∧
        x.image = configSection v ∧ tget 0 x.aux auxStep = s.epoch.step ∧ tget 0 x.aux auxParity = s.epoch.parity ∧
        tget 0 x.aux auxTime = now s ∧ Others s t c.key ∧ t = { s with cmds := t.cmds, mreqs := t.mreqs, mwait := t.mwait })) ∧
  ∀ (r : DoneRef) (s : State) (c : Cmd), Begun s (doneKey r) c → dOp c.desc = 0x28 → c.errs = [] → s.ras.damage = [] → s.ras.lost = [] →
    let v := readView s c.key 7
    (readsWait s c.key = true ∨ 4 ≤ c.asked → exec (.snap r) s = .next s) ∧
    (readsWait s c.key = false → c.asked = 1 → ∃ t, exec (.snap r) s = .next t ∧ Others s t c.key ∧ t = { s with cmds := t.cmds } ∧
      findCmd t c.key = some { c with asked := 2, image := c.image ++ paramsSection v c (tget 0 c.aux auxParity) }) ∧
    (readsWait s c.key = false → c.asked = 2 → ∃ t x, exec (.snap r) s = .next t ∧ Others s t c.key ∧ t = { s with
        cmds := t.cmds } ∧
      findCmd t c.key = some x ∧ x.asked = 3 ∧ x.image = c.image ++ ledgerSection v c.desc) ∧
    (∀ g, readsWait s c.key = false → c.asked = 3 → nextGroup s c = some g →
      (groupBusy s g = true → exec (.snap r) s = .next s) ∧
      (groupBusy s g = false → ∃ t x, exec (.snap r) s = .next t ∧ Others s t c.key ∧ findCmd t c.key = some x ∧ x.asked = 3 ∧
        x.window = g + 1 ∧ x.image = c.image ++ groupImage v g ∧ Accessed s t g ∧ t = { s with
            cmds := t.cmds, tiles := t.tiles, clock := t.clock })) ∧
    (readsWait s c.key = false → c.asked = 3 → nextGroup s c = none →
      ∃ t x l, exec (.snap r) s = .next t ∧ Others s t c.key ∧ findCmd t c.key = some x ∧ x.asked = 4 ∧ x.phase = .begun ∧
        t.txq = s.txq ++ l ∧ (∀ p ∈ l, p.key = c.key ∧ p.vc = 0 ∧ p.ackReq = true) ∧ l.length = ceilDiv x.outRec 8192 ∧
        t = { s with cmds := t.cmds, txq := t.txq, txState := t.txState })

/-- RESTORE with an image reads its header: one without the magic, the version or the digest ends it with BAD_IMAGE, else it asks for the rest. With
the image read, a failed check ends it with that check's status and no effect; otherwise it takes effect and ends OK, or waits for the
acknowledgement of its writes.
An epoch-only RESTORE reads nothing: DATA_STEP 0 ends it with BAD_STEP; otherwise it sets parity 0, the committed step DATA_STEP − 1 and
ATTEMPT 0, clears the staged records and counts, and changes nothing else. -/
def Obligations.RestoreChecksThenWrites : Prop :=
  (∀ (r : CmdRef) (s : State) (c : Cmd), Ready s (refKey r) c → dOp c.desc = 0x29 → snAddr c.desc ≠ 0 →
     let v := readView s c.key 7
     let h := v.bytes (snAddr c.desc) 128
     let sound := fieldAt h 0 4 = 0x534E5046 ∧ fieldAt h 4 2 = 1 ∧ fieldAt h 0x50 8 = crc64 (h.take 0x50)
     (c.asked = 0 → ¬ sound → ∃ t, exec (.restore r) s = .next t ∧ Ended s t c stBadImage 0 0 ∧ t = { s with cmds := t.cmds }) ∧
     (c.asked = 0 → sound → ∃ t, exec (.restore r) s = .next t ∧ findCmd t c.key = some { c with asked := 1 } ∧ Others s t c.key ∧
       t = { s with cmds := t.cmds, mreqs := t.mreqs, mwait := t.mwait }) ∧
     (c.asked ≠ 0 → restoreFail v c ≠ stOK → ∃ t, exec (.restore r) s = .next t ∧ Ended s t c (restoreFail v c) 0 0 ∧ t = { s with
         cmds := t.cmds }) ∧
     (c.asked ≠ 0 → restoreFail v c = stOK → ∃ t x, exec (.restore r) s = .next t ∧ findCmd t c.key = some x ∧ Others s t c.key ∧
       (x.phase = .begun ∨ x.phase = .ended ∧ x.status = stOK ∧ t.epoch.state = .stable ∧ t.epoch.step = fieldAt h 8 4) ∧ t.statsSt = [] ∧
       t = { s with
           cmds := t.cmds, cfg := t.cfg, advisor := t.advisor, statsCom := t.statsCom, statsSt := t.statsSt, ledger := t.ledger
           groups := t.groups, tiles := t.tiles, frames := t.frames, preloads := t.preloads, diverts := t.diverts
           clock := t.clock, mem := t.mem, mreqs := t.mreqs, epoch := t.epoch, ras := t.ras, sts := t.sts, trace := t.trace
           cport := t.cport, mwait := t.mwait })) ∧
  ∀ (r : CmdRef) (s : State) (c : Cmd), Ready s (refKey r) c → dOp c.desc = 0x29 → snAddr c.desc = 0 →
    (rsDataStep c.desc = 0 → ∃ t, exec (.epochOnlyRestore r) s = .next t ∧ Ended s t c stBadStep 0 0 ∧ t = { s with
        cmds := t.cmds }) ∧
    (rsDataStep c.desc ≠ 0 → ∃ t, exec (.epochOnlyRestore r) s = .next t ∧ Ended s t c stOK 0 0 ∧
      t.epoch = { s.epoch with
        parity := 0, step := rsDataStep c.desc - 1, attempt := 0, state := .stable, applied := 0, params := 0, poisoned := 0, waiting := 0 } ∧
      t.statsSt = [] ∧ t.mem = s.mem ∧
      (∀ id, (layerOf t id).stCounts = advCountsZero ∧ (layerOf t id).live = (layerOf s id).live ∧
        (layerOf t id).comCounts = (layerOf s id).comCounts ∧ (layerOf t id).dxMask = (layerOf s id).dxMask) ∧
      StatusKept s t [0x00, 0x03, 0x04] ∧
      t = { s with
          cmds := t.cmds, epoch := t.epoch, statsSt := t.statsSt, advisor := t.advisor, sts := t.sts, trace := t.trace
          cport := t.cport, ras := { s.ras with lost := t.ras.lost } })

/-! ### Self-test (17) -/

/-- A BIST of each KIND begins to work alone and holds the unit; BIST_END ends it with OK when no tested unit failed and else with FAULT, sets
BIST_DONE, and writes its 64-byte record at RESULT and nothing else; what the test finds comes with the command (log 20). -/
def Obligations.BistTestsAndReports : Prop :=
  (∀ (r : CmdRef) (s : State) (c : Cmd) (kind : Nat) (i : Instr), Ready s (refKey r) c → dOp c.desc = 0x38 → bistKind c.desc = kind →
    (kind, i) ∈ [(1, Instr.bistLogic r), (2, .bistMemory r), (3, .bistLogicThenMemory r)] →
    ∃ t, exec i s = .next t ∧ findCmd t c.key = some { c with phase := .begun, aux := [(0, now s)] } ∧ Others s t c.key ∧
      t.bist = { s.bist with key := some c.key, status := if kind = 2 then 3 else 2 } ∧
      StatusKept s t [0x02, 0x04] ∧ t = { s with
          cmds := t.cmds, bist := t.bist, power := t.power, sts := t.sts, trace := t.trace, cport := t.cport }) ∧
  ∀ (r : CmdRef) (s : State) (c : Cmd) (o : BistOutcome), Begun s (refKey r) c → dOp c.desc = 0x38 → s.bist.key = some c.key →
    bistClocked s c.desc = true →
    ∃ t status, exec (.bistEnd r o) s = .next t ∧ EndedAs t c.key status c.flags ∧ Others s t c.key ∧ t.bist.key = none ∧
      ((logicFails s c.desc o = [] ∧ memoryFails s c.desc o = []) → status = stOK) ∧
      ((logicFails s c.desc o ≠ [] ∨ memoryFails s c.desc o ≠ []) → status = stFault ∧ bitOf (rd t (hdrEvt 0x05)) 9 = true) ∧
      bitOf (rd t (hdrEvt 0x05)) 8 = true ∧ t.num (dNum c.desc 0x20 8) 4 = 0x42535446 ∧ t.num (dNum c.desc 0x20 8 + 4) 1 = bistKind c.desc ∧
      (∀ a, a < dNum c.desc 0x20 8 ∨ dNum c.desc 0x20 8 + 64 ≤ a → t.byte a = s.byte a) ∧
      t = { s with
          cmds := t.cmds, bist := t.bist, arrays := t.arrays, loadw := t.loadw, dyCache := t.dyCache, hod := t.hod
          tiles := t.tiles, ledger := t.ledger, advisor := t.advisor, statsCom := t.statsCom, statsSt := t.statsSt
          rxOpen := t.rxOpen, rxClosed := t.rxClosed, lcache := t.lcache, ras := t.ras, mem := t.mem, mreqs := t.mreqs
          sts := t.sts, trace := t.trace, cport := t.cport, mwait := t.mwait }

/-! ### The command processor (12) -/
/-- DOORBELL: a TAIL not below the present one and not above RETIRED by more than the ring is taken; any other is ignored, counted and sets
BAD_VALUE in QUE.EVT and BAD_DOORBELL.
SETPTR of a DISABLED queue without commands sets TAIL, HEAD and RETIRED; of any other it changes none of them and sets BAD_VALUE. -/
def Obligations.DoorbellAndSetptrMoveThePointers : Prop :=
  (∀ (q : BitVec 4) (tail : BitVec 32) (s : State), Reaches s (0x30 + q.toNat) →
     let fits := serialLt tail.toNat (rd s (queTailCount q.toNat)) = false ∧
       serialLt ((rd s (queRetiredCount q.toNat) + 2 ^ rd s (queRingCtlSizeLog2 q.toNat)) % 2 ^ 32) tail.toNat = false
     (fits → ∃ t, exec (.doorbell q tail) s = .next t ∧ rd t (queTailCount q.toNat) = tail.toNat ∧
       queueOf t q.toNat = { queueOf s q.toNat with bells := (queueOf s q.toNat).bells ++
         (if tail.toNat = rd s (queTailCount q.toNat) then [] else [(tail.toNat, now s)]) } ∧
       (∀ p, p ≠ q.toNat → queueOf t p = queueOf s p) ∧ StatusKept s t [0x30 + q.toNat] ∧
       t = { s with queues := t.queues, sts := t.sts, regData := 0, regErr := 0 }) ∧
     (¬ fits → ∃ t, exec (.doorbell q tail) s = .next t ∧ rd t (queTailCount q.toNat) = rd s (queTailCount q.toNat) ∧
       rd t cmdBadDoorbellCount = satAdd cmdBadDoorbellCount.width (rd s cmdBadDoorbellCount) 1 ∧
       bitOf (rd t (hdrEvt (0x30 + q.toNat))) 1 = true ∧ bitOf (rd t (hdrEvt 0x01)) 9 = true ∧
       StatusKept s t [0x01, 0x04, 0x30 + q.toNat] ∧ t = { s with
           sts := t.sts, trace := t.trace, cport := t.cport, regData := 0, regErr := 0 })) ∧
  ∀ (q : BitVec 4) (v : BitVec 32) (s : State), Reaches s (0x30 + q.toNat) →
    (queueIdle s q.toNat = true → ∃ t, exec (.setptr q v) s = .next t ∧ rd t (queTailCount q.toNat) = v.toNat ∧
      rd t (queHeadCount q.toNat) = v.toNat ∧ rd t (queRetiredCount q.toNat) = v.toNat ∧
      queueOf t q.toNat = { queueOf s q.toNat with bells := [], fetched := [] } ∧ (∀ p, p ≠ q.toNat → queueOf t p = queueOf s p) ∧
      StatusKept s t [0x30 + q.toNat] ∧ t = { s with queues := t.queues, sts := t.sts, regData := 0, regErr := 0 }) ∧
    (queueIdle s q.toNat = false → ∃ t, exec (.setptr q v) s = .next t ∧ rd t (queTailCount q.toNat) = rd s (queTailCount q.toNat) ∧
      rd t (queHeadCount q.toNat) = rd s (queHeadCount q.toNat) ∧ rd t (queRetiredCount q.toNat) = rd s (queRetiredCount q.toNat) ∧
      bitOf (rd t (hdrEvt (0x30 + q.toNat))) 1 = true ∧ StatusKept s t [0x04, 0x30 + q.toNat] ∧
      t = { s with sts := t.sts, trace := t.trace, cport := t.cport, regData := 0, regErr := 0 })

/-- Enabling a DISABLED queue makes it RUNNING. Disabling a RUNNING or HALTED one makes it DRAINING, and at once DISABLED when it has no
command left; its FENCEs end, with FLUSHED where their targets are not reached. RESUME makes a HALTED queue RUNNING and does nothing
else. The other queues stay as they are. -/
def Obligations.QueuesEnableDisableResume : Prop :=
  ∀ (q : BitVec 4) (ctl : Word) (s : State), Reaches s (0x30 + q.toNat) →
    let x := queueOf s q.toNat
    (∃ t, exec (.queueEnable q ctl) s = .next t ∧ rd t (queRingCtlEnable q.toNat) = 1 ∧
      (x.state ≠ .draining → queueOf t q.toNat = { x with state := if x.state = .disabled then .running else x.state }) ∧
      (x.state = .draining → queueOf t q.toNat = { x with again := true }) ∧
      (∀ p, p ≠ q.toNat → queueOf t p = queueOf s p) ∧ StatusKept s t [0x04, 0x30 + q.toNat] ∧
      t = { s with
          cfg := t.cfg, sts := t.sts, queues := t.queues, trace := t.trace, cport := t.cport, regData := 0, regErr := 0 }) ∧
    (∃ t, exec (.queueDisable q ctl) s = .next t ∧ rd t (queRingCtlEnable q.toNat) = 0 ∧
      (x.state = .running ∨ x.state = .halted →
        (queueOf t q.toNat).state = if x.fetched.isEmpty && (queueCmds s q.toNat).isEmpty then .disabled else .draining) ∧
      (x.state = .disabled → t.queues = s.queues) ∧
      ((∀ e ∈ s.cmds, ∀ c ∈ s.cmds, e.key = c.key → e = c) → x.state = .running ∨ x.state = .halted →
        ∀ c ∈ s.cmds, c.q = q.toNat → dOp c.desc = 0x30 → c.phase = .started ∨ c.phase = .begun →
          ∃ flags, EndedAs t c.key (if fenceReached s c.desc then stOK else stFlushed) flags) ∧
      (∀ p, p ≠ q.toNat → queueOf t p = queueOf s p) ∧ StatusKept s t [0x04, 0x30 + q.toNat] ∧
      t = { s with
          cfg := t.cfg, cmds := t.cmds, sts := t.sts, queues := t.queues, trace := t.trace, cport := t.cport, regData := 0
          regErr := 0 }) ∧
    (∃ t, exec (.resume q) s = .next t ∧
      queueOf t q.toNat = { x with state := if x.state = .halted then .running else x.state } ∧
      (∀ p, p ≠ q.toNat → queueOf t p = queueOf s p) ∧ t = { s with queues := t.queues, regData := 0, regErr := 0 })

/-- DESCRIPTOR_FETCH: a RUNNING queue with commands below TAIL and fewer than 16 fetched, in its turn and with a reserved credit, reads the 128
bytes of the descriptor at HEAD and advances HEAD; otherwise nothing happens (log 4). -/
def Obligations.DescriptorsAreFetched : Prop :=
  ∀ (q : BitVec 4) (s : State), s.wbuf = [] → s.rbuf = [] →
    let n := rd s (queHeadCount q.toNat)
    let addr := rd s (queRingBaseAddr q.toNat) + n % 2 ^ rd s (queRingCtlSizeLog2 q.toNat) * 128
    let may := unitsRun s = true ∧ wantsFetch s q.toNat = true ∧ fetchTurn s q.toNat = true ∧
      reservedFree s (mportOf addr) (rd s (queRingCtlClass q.toNat) == 0) = true
    (may → ∃ t tag f, exec (.descriptorFetch q) s = .next t ∧ rd t (queHeadCount q.toNat) = (n + 1) % 2 ^ 32 ∧
      t.mreqs = s.mreqs ++ [⟨mportOf addr, tag, true, false, addr, 128, [(addr, 128)], .descriptor q.toNat n⟩] ∧
      (queueOf t q.toNat).fetched = (queueOf s q.toNat).fetched ++ [f] ∧ f.seq = n ∧ f.desc = none ∧ f.failed = false ∧
      (∀ p, p ≠ q.toNat → queueOf t p = queueOf s p) ∧ StatusKept s t [0x30 + q.toNat] ∧ t = { s with
          mreqs := t.mreqs, queues := t.queues, rrobin := t.rrobin, sts := t.sts, mwait := t.mwait }) ∧
    (¬ may → exec (.descriptorFetch q) s = .next s)

/-- COMMAND_START of a head descriptor that has arrived: a draining queue drops it with FLUSHED; records it names that are missing are read first;
what it waits for keeps it where it is (the order of the causes is log 56's). Then an unknown opcode ends with BAD_OPCODE; a command that fails a
check ends with that check's status and RESULT, a COMMIT or ABANDON with the committed step where the check sets none; one without rows
ends OK with EMPTY; any other starts, with the register fields and the attempt latched. Each leaves the fetched list. The records of the commands
that could share the row window of one with PACK are read before it starts (log 74); those that do share it start with it. -/
def Obligations.CommandsStartWhenNothingHolds : Prop :=
  ∀ (q : BitVec 4) (s : State) (f : Fetched) (rest : List Fetched) (d : List Byte), unitsRun s = true → s.wbuf = [] → s.rbuf = [] → s.ras.damage = [] →
    (queueOf s q.toNat).fetched = f :: rest → f.desc = some d → f.failed = false → recordsWait s q.toNat f.seq = false →
    findCmd s (q.toNat * 2 ^ 32 + f.seq) = none →
    let v := recView s f
    let cls := rd s (queRingCtlClass q.toNat)
    let cause := waitCause v q.toNat (failsAlone v q.toNat f.recFail d) d
    let fail := commandFail v cls f.recFail d
    let run := (queueOf s q.toNat).state = .running ∧ missingRecs s cls f = []
    let mates := packable d = true → fail = none → ∀ m ∈ followers d rest (pM d), recordsWait s q.toNat m.seq = false ∧ missingRecs s cls m = []
    let refused := fun (t : State) (status result : Nat) =>
      (queueOf t q.toNat).fetched = rest ∧ ∃ x, t.cmds = s.cmds ++ [x] ∧ x.key = q.toNat * 2 ^ 32 + f.seq ∧ x.desc = d ∧
        x.phase = .ended ∧ x.status = status ∧ x.refused = true ∧
        x.result = if (dOp d = 0x23 ∨ dOp d = 0x24) ∧ result = 0 then s.epoch.step else result
    let started := fun (x : Cmd) => x.key = q.toNat * 2 ^ 32 + f.seq ∧ x.desc = d ∧ x.phase = .started ∧ x.lat = latchNow s ∧
      x.attempt = s.epoch.attempt ∧ x.bell = f.bell ∧ x.errs = [] ∧ (∀ g ∈ writtenGroups d, genOf x g = (groupOf s g).gen)
    ((queueOf s q.toNat).state = .draining → ∃ t, exec (.commandStart q) s = .next t ∧ refused t stFlushed 0 ∧ t = { s with
        cmds := t.cmds, queues := t.queues }) ∧
    ((queueOf s q.toNat).state = .running → missingRecs s cls f ≠ [] → ∃ t, exec (.commandStart q) s = .next t ∧ t = { s with
        mreqs := t.mreqs, mwait := t.mwait }) ∧
    (run → cause ≠ 0 → exec (.commandStart q) s = .next s) ∧
    (run → cause = 0 → opcodes.contains (dOp d) = false →
      ∃ t, exec (.commandStart q) s = .next t ∧ refused t stBadOpcode 0 ∧ t = { s with cmds := t.cmds, queues := t.queues }) ∧
    (∀ st res, run → cause = 0 → opcodes.contains (dOp d) = true → fail = some (st, res) →
      ∃ t, exec (.commandStart q) s = .next t ∧ refused t st res ∧ StatusKept s t [0x01, 0x04] ∧ t = { s with
          cmds := t.cmds, queues := t.queues, sts := t.sts, trace := t.trace, cport := t.cport }) ∧
    (run → cause = 0 → opcodes.contains (dOp d) = true → fail = none → mates → zeroRows d = true →
      ∃ t x, exec (.commandStart q) s = .next t ∧ (queueOf t q.toNat).fetched = rest ∧ t.cmds = s.cmds ++ [x] ∧ x.desc = d ∧
        x.phase = .ended ∧ x.status = stOK ∧ x.flags = flEmpty ∧ t = { s with
            cmds := t.cmds, queues := t.queues, sts := t.sts, trace := t.trace, cport := t.cport }) ∧
    (run → cause = 0 → opcodes.contains (dOp d) = true → fail = none → mates → zeroRows d = false →
      ∃ t x, exec (.commandStart q) s = .next t ∧ x ∈ t.cmds ∧ started x ∧
        (packable d = false ∨ rest = [] → (queueOf t q.toNat).fetched = rest ∧ t.cmds.length = s.cmds.length + 1) ∧
        (∀ p, p ≠ q.toNat → queueOf t p = queueOf s p) ∧ t = { s with
            cmds := t.cmds, epoch := t.epoch, mreqs := t.mreqs, power := t.power, queues := t.queues, ras := t.ras
            sts := t.sts, trace := t.trace, cport := t.cport, mwait := t.mwait })

/-- COMPLETION_RECORD of an ended command whose turn it is puts the 32 bytes of R319 at the entry of its SEQ in the completion ring, on a reserved
credit, and nothing else into memory; a command before its turn waits. That the bytes are in memory at once is the model's choice (log 54). -/
def Obligations.CompletionRecordsAreWritten : Prop :=
  ∀ (r : CmdRef) (s : State) (c : Cmd), findCmd s (refKey r) = some c → unitsRun s = true → s.wbuf = [] → s.rbuf = [] →
    let addr := rd s (queCplBaseAddr c.q) + c.seq % 2 ^ rd s (queRingCtlSizeLog2 c.q) * 32
    let may := c.phase = .ended ∧ writesPending s c.key = false ∧ (∀ h ∈ s.handoffs, h.key ≠ c.key) ∧ c.seq = rd s (queRetiredCount c.q)
    (may → reservedFree s (mportOf addr) false = true → dOp c.desc < 2 ^ 8 → c.status < 2 ^ 8 → c.flags < 2 ^ 32 → c.result < 2 ^ 32 →
      ∃ t x tag, exec (.completionRecord (.queued r)) s = .next t ∧ findCmd t c.key = some x ∧ x.phase = .recorded ∧ Others s t c.key ∧
        t.num addr 8 = now s % 2 ^ 64 ∧ t.num (addr + 0x08) 4 = c.seq ∧ t.num (addr + 0x0C) 1 = dOp c.desc ∧
        t.num (addr + 0x0D) 1 = c.status ∧
        t.num (addr + 0x0E) 1 = c.q + (if c.seq / 2 ^ rd s (queRingCtlSizeLog2 c.q) % 2 = 0 then 128 else 0) ∧
        t.num (addr + 0x0F) 1 = 0 ∧ t.num (addr + 0x10) 4 = c.flags ∧ t.num (addr + 0x14) 4 = dStamp c.desc ∧
        t.num (addr + 0x18) 4 = c.result ∧ t.num (addr + 0x1C) 4 = dTag c.desc ∧
        (∀ a, a < addr ∨ addr + 32 ≤ a → t.byte a = s.byte a) ∧ (∀ e ∈ t.staged, e.key ≠ c.key) ∧
        t.mreqs = s.mreqs ++ [⟨mportOf addr, tag, true, true, addr, 32, [(addr, 32)], .completion c.key⟩] ∧
        t = { s with
            cmds := t.cmds, epoch := t.epoch, groups := t.groups, advisor := t.advisor, statsSt := t.statsSt
            preloads := t.preloads, diverts := t.diverts, mem := t.mem, mreqs := t.mreqs, staged := t.staged, sts := t.sts
            trace := t.trace, cport := t.cport, mwait := t.mwait }) ∧
    (¬ may → exec (.completionRecord (.queued r)) s = .next s)

/-! ### The arrays step by step (04, 05, 07, 12) -/

/-- PREEMPT by a ready product command, with a save area and a victim: the victim and the commands of its row window are saved, and of the save
area only the places of hod tiles and context records are written, the planes following when their lanes stand at a boundary (R101, R316). Without a
victim, without a save area and for a command that may not work nothing happens (log 4). -/
def Obligations.PreemptSavesCommands : Prop :=
  ∀ (r : CmdRef) (s : State) (c : Cmd), findCmd s (refKey r) = some c → s.wbuf = [] → s.rbuf = [] →
    let base := rd s cmdSaveBaseAddr
    (∀ v, arraysMay s c = true → c.saved = false → base ≠ 0 → s.cmds.find? (preempts s c) = some v →
      ∃ t, exec (.preempt r) s = .next t ∧
        (∀ m ∈ mates s v, ∀ x, findCmd s m.key = some x → ∃ y, findCmd t m.key = some y ∧ y.saved = true ∧ y.phase = x.phase) ∧
        (∀ j, (∀ x ∈ s.cmds, j ∉ x.pack ∧ (x.key = j → classOf s x.q ≤ classOf s c.q)) →
          (∀ p ∈ s.arrays, ∀ q ∈ p.2.passes, ∀ x ∈ q.parts, x.key ≠ j) → findCmd t j = findCmd s j) ∧
        (∀ a, a < base + 0x1800000 ∨ base + 0x2820000 ≤ a → t.byte a = s.byte a) ∧
        StatusKept s t [0x01, 0x04] ∧ t = { s with
            arrays := t.arrays, cmds := t.cmds, images := t.images, hod := t.hod, dyCache := t.dyCache, mem := t.mem
            mreqs := t.mreqs, free := t.free, sts := t.sts, trace := t.trace, cport := t.cport, mwait := t.mwait }) ∧
    (base = 0 ∨ arraysMay s c = false ∨ (∀ v ∈ s.cmds, preempts s c v = false) → exec (.preempt r) s = .next s)

/-- COMMAND_RESUME of a preempted command that may resume, with the commands of its row window, and whose planes find room: they are saved no longer,
and their images are gone from the list, their planes LOADING from the save area. One that may not resume yet, a command in DRAIN among them, and
one that is not saved stay as they are (log 4). -/
def Obligations.ResumeTakesImagesBack : Prop :=
  ∀ (r : CmdRef) (s : State) (c : Cmd), findCmd s (refKey r) = some c → s.wbuf = [] → s.rbuf = [] →
    let ms := mates s c
    let mine := fun (x : Saved) => ms.any (fun m => m.key == x.key)
    ((∀ m ∈ ms, resumeReady s m = true) → (bringAll s (s.images.filter mine)).isSome = true →
      ∃ t, exec (.commandResume r) s = .next t ∧ (∀ m ∈ ms, findCmd t m.key = (findCmd s m.key).map (fun x => { x with saved := false })) ∧
        (∀ j, (∀ m ∈ ms, m.key ≠ j) → findCmd t j = findCmd s j) ∧ t.images = s.images.filter (fun x => !(mine x)) ∧
        (c.pack = [] → rd t cmdPreemptsResumes = satAdd cmdPreemptsResumes.width (rd s cmdPreemptsResumes) 1) ∧
        StatusKept s t [0x01, 0x04] ∧ t = { s with
            arrays := t.arrays, cmds := t.cmds, images := t.images, staged := t.staged, loadw := t.loadw, mreqs := t.mreqs
            sts := t.sts, trace := t.trace, cport := t.cport, mwait := t.mwait }) ∧
    ((∃ m ∈ ms, resumeReady s m = false) → exec (.commandResume r) s = .next s) ∧
    (c.pack = [] → s.power.state = .drain ∨ c.saved = false → exec (.commandResume r) s = .next s)

/-- PLANE_SAVE_COMPLETE writes the plane record of the SAVING plane at its place in the save area and frees the plane. PLANE_LOAD_COMPLETE: a
LOADING plane has its image, that of a preload or of carries at once, that of a preempted pass once its record has been read back; until then,
and without such a plane, nothing happens (log 4). -/
def Obligations.PlanesAreSavedAndLoaded : Prop :=
  ∀ (a : BitVec 5) (s : State), unitsRun s = true → s.wbuf = [] → s.rbuf = [] →
    let x := arrayOf s a.toNat
    (∀ c i, x.planeA.state = .saving → findCmd s x.planeA.key = some c → c.items[x.planeA.item]? = some i → mustStop c i = false →
      s.ras.damage = [] → s.ras.lost = [] →
      let addr := x.planeA.src
      ∃ t, exec (.planeSaveComplete a) s = .next t ∧ arrayOf t a.toNat = { x with planeA := planeFree } ∧
        (∀ b, b ≠ a.toNat → arrayOf t b = arrayOf s b) ∧ t.num addr 4 = 0x504C4146 ∧ t.num (addr + 8) 2 = 256 ∧
        t.num (addr + 0x10) 8 = x.planeA.count % 2 ^ 64 ∧ t.num (addr + 0x18) 4 = dStamp c.desc ∧
        t.num (addr + 0x1C) 4 = ((x.planeA.parts.head?.map (·.tile)).getD 0) % 2 ^ 32 ∧
        (∀ k < 65536, t.num (addr + 64 + 6 * k) 6 = (tget 0 x.planeA.entries k).toNat) ∧
        (∀ b, b < addr ∨ addr + planeBytes ≤ b → t.byte b = s.byte b) ∧ t = { s with
            arrays := t.arrays, mem := t.mem, mreqs := t.mreqs, mwait := t.mwait }) ∧
    (x.planeA.state ≠ .saving → x.planeB.state ≠ .saving → exec (.planeSaveComplete a) s = .next s) ∧
    (x.planeA.state = .loading → x.planeA.loaded = false →
      (x.planeA.src = 0 → ∃ t, exec (.planeLoadComplete a) s = .next t ∧ t = { s with arrays := t.arrays } ∧
        arrayOf t a.toNat = { x with planeA := { x.planeA with loaded := true } } ∧ (∀ b, b ≠ a.toNat → arrayOf t b = arrayOf s b)) ∧
      (∀ e, x.planeA.src ≠ 0 → recordBack s x.planeA.key x.planeA.src = some e → ∃ t, exec (.planeLoadComplete a) s = .next t ∧
        arrayOf t a.toNat = { x with planeA := { x.planeA with loaded := true, src := 0, entries := e } } ∧
        (∀ b, b ≠ a.toNat → arrayOf t b = arrayOf s b) ∧ t = { s with arrays := t.arrays, staged := t.staged }) ∧
      (x.planeA.src ≠ 0 → recordBack s x.planeA.key x.planeA.src = none → exec (.planeLoadComplete a) s = .next s)) ∧
    ((x.planeA.state ≠ .loading ∨ x.planeA.loaded = true) → (x.planeB.state ≠ .loading ∨ x.planeB.loaded = true) →
      exec (.planeLoadComplete a) s = .next s)

/-- SLOT_LOAD of an array with a pass: the tiles of the first stage that no slot holds, once its core holds them, go into the front slot of an array
with nothing in flight where that may be reloaded, else into the back slot, the other slot staying as it is; an FP32 tile takes both slots. Each of
the
core's other arrays that wants the same tiles takes them from the same read (R95). With every next stage's tiles loaded nothing happens (log 4). -/
def Obligations.SlotsAreLoaded : Prop :=
  ∀ (a : BitVec 5) (s : State) (p : Pass) (c : Cmd) (i : Item) (kbs : List Nat), s.wbuf = [] → s.rbuf = [] →
    let ar := arrayOf s a.toNat
    let strip := itemStrip c i
    ar.passes = [p] → p.stages ≠ [] → passCmd s p = some (c, i) → i.kind = .stat →
    ((∀ t ∈ nextTiles s ar, (slotOfStage ar t.1 t.2.1 t.2.2).isSome = true) → exec (.slotLoad a) s = .next s) ∧
    ((nextTiles s ar).find? (fun t => (slotOfStage ar t.1 t.2.1 t.2.2).isNone) = some (p.key, strip, kbs) →
      (tilesHeld s c (a.toNat / 4) strip kbs = false → exec (.slotLoad a) s = .next s) ∧
      (tilesHeld s c (a.toNat / 4) strip kbs = true → arraysMay s c = true → c.saved = false →
        let f32 := (statFmt (coreView s c (a.toNat / 4)) c).fmt = .fp32
        let front := ar.groups = [] ∧ slotIdle s ar ar.slotF = true
        let back := slotIdle s ar (!ar.slotF) = true
        (f32 → slotIdle s ar ar.slotF = true → back → ∃ t, exec (.slotLoad a) s = .next t ∧
          (slotAt (arrayOf t a.toNat) ar.slotF).holds p.key strip kbs = true ∧ (slotAt (arrayOf t a.toNat) (!ar.slotF)).holds p.key strip kbs = true ∧
          (∀ b, b / 4 ≠ a.toNat / 4 → arrayOf t b = arrayOf s b) ∧ t = { s with
              arrays := t.arrays, cmds := t.cmds, sts := t.sts }) ∧
        (¬ f32 → front → ∃ t, exec (.slotLoad a) s = .next t ∧ (slotAt (arrayOf t a.toNat) ar.slotF).holds p.key strip kbs = true ∧
          slotAt (arrayOf t a.toNat) (!ar.slotF) = slotAt ar (!ar.slotF) ∧ (arrayOf t a.toNat).passes = [p] ∧
          (∀ b, b / 4 ≠ a.toNat / 4 → arrayOf t b = arrayOf s b) ∧ t = { s with
              arrays := t.arrays, cmds := t.cmds, sts := t.sts }) ∧
        (¬ f32 → ¬ front → back → ∃ t, exec (.slotLoad a) s = .next t ∧ (slotAt (arrayOf t a.toNat) (!ar.slotF)).holds p.key strip kbs = true ∧
          slotAt (arrayOf t a.toNat) ar.slotF = slotAt ar ar.slotF ∧ (arrayOf t a.toNat).passes = [p] ∧
          (∀ b, b / 4 ≠ a.toNat / 4 → arrayOf t b = arrayOf s b) ∧ t = { s with
              arrays := t.arrays, cmds := t.cmds, sts := t.sts })))

/-- ROW_GROUP_ISSUE: an array without a pass begins one of the tile that arbitration gives it. A pass that can issue, with the one that consumes its
row
groups together with it, issues its next row group: the count of issued groups advances by one, or with the stage's last group the next stage comes
up,
and the group waits for its patches; no array outside the lane changes. A pass that cannot issue waits. -/
def Obligations.RowGroupsAreIssued : Prop :=
  (∀ (a : BitVec 5) (s : State) (c : Cmd) (k : Nat) (i : Item), s.wbuf = [] → s.rbuf = [] → (arrayOf s a.toNat).passes = [] →
    nextItem s a.toNat = some (c, k, i) → findCmd s c.key = some c → c.pack = [] → i.array = a.toNat → (i.kind = .stat → pSform c.desc = false) →
    refoldItem s c i = false → jointOf s c k i = none → failedArray s a.toNat = false → hasPreload s (partsOf s c k) = false →
    ∃ t q x, exec (.rowGroupIssue a) s = .next t ∧ (arrayOf t a.toNat).passes = [q] ∧ q.key = c.key ∧ q.item = k ∧ q.grp = 0 ∧
      findCmd t c.key = some x ∧ x.items[k]? = some { i with st := .active } ∧ Others s t c.key ∧
      (∀ d, d ≠ a.toNat → arrayOf t d = arrayOf s d) ∧ t = { s with arrays := t.arrays, cmds := t.cmds }) ∧
  ∀ (a : BitVec 5) (s : State) (p : Pass) (c : Cmd) (i : Item) (st : Stage) (more : List Stage) (b : Bool) (pl : Plane),
    s.wbuf = [] → s.rbuf = [] → s.ras.damage = [] → s.ras.lost = [] →
    let ar := arrayOf s a.toNat
    issuePass ar = some p → ar.passes.find? (fun q => q.key == p.key && q.item == p.item) = some p → passCmd s p = some (c, i) →
    i.array = a.toNat → p.stages = st :: more → c.saved = false → (∀ m ∈ mates s c, m.errs = [] ∧ m.trapRow = none) →
    (∀ x ∈ jointPasses s a.toNat p, failedArray s x.1 = false) →
    ((∃ x ∈ jointPasses s a.toNat p, canIssue s x.1 x.2 = false) → chainBroken c i = false → exec (.rowGroupIssue a) s = .next s) ∧
    ((∀ x ∈ jointPasses s a.toNat p, canIssue s x.1 x.2 = true ∧ x.2.grp = p.grp ∧ x.2.stages.head?.map (·.1) = some st.1) →
      stagePlane ar c i p st = some (b, pl) →
      ∃ t g, exec (.rowGroupIssue a) s = .next t ∧ (arrayOf t a.toNat).groups = ar.groups ++ [g] ∧ g.key = p.key ∧ g.item = p.item ∧
        g.stage = st ∧ g.grp = p.grp ∧ g.planeB = b ∧ g.done = [] ∧ g.sums = [] ∧
        (arrayOf t a.toNat).passes.find? (fun q => q.key == p.key && q.item == p.item) =
          some (if p.grp + 1 = rowGroups c p st then { p with stages := more, grp := 0 } else { p with grp := p.grp + 1 }) ∧
        (planeAt (arrayOf t a.toNat) b).entries = pl.entries ∧ (arrayOf t a.toNat).lastB = b ∧
        (∀ d, (∀ x ∈ jointPasses s a.toNat p, x.1 ≠ d) → arrayOf t d = arrayOf s d) ∧ t = { s with
            arrays := t.arrays, dyCache := t.dyCache, sts := t.sts })

/-- PATCH_ROW_GROUP: a patch that holds its inputs does its next row group in its array and nothing outside the arrays changes but what the end of the
stage or the edge brings to the commands of the pass. While another used patch still owes the group, the patch is noted, the pass stays as it is, and
in an
outer product each entry of the patch takes the cell step of the group's rows and every other entry stays (R89). A patch without its inputs, or
without
a row group, does nothing (log 4). -/
def Obligations.PatchesWork : Prop :=
  ∀ (a : BitVec 5) (patch : BitVec 8) (s : State), s.wbuf = [] → s.rbuf = [] →
    let ar := arrayOf s a.toNat
    let n := patch.toNat
    (nextRowGroup s ar n = none → exec (.patchRowGroup a patch) s = .next s) ∧
    ∀ (g : RowGrp) (p : Pass) (c : Cmd) (i : Item), nextRowGroup s ar n = some g →
      ar.passes.find? (fun p => p.key == g.key && p.item == g.item) = some p → grpCmd s g = some (c, i) → unitsRun s = true →
      (patchReady s a.toNat n g p c i = false → exec (.patchRowGroup a patch) s = .next s) ∧
      (patchReady s a.toNat n g p c i = true → ∃ t, exec (.patchRowGroup a patch) s = .next t ∧
        (∀ d, d ≠ a.toNat → arrayOf t d = arrayOf s d) ∧ t = { s with arrays := t.arrays, cmds := t.cmds, sts := t.sts }) ∧
      (patchReady s a.toNat n g p c i = true → (∃ m ∈ usedPatches s c i, m ≠ n ∧ m ∉ g.done) →
        ∃ t h, exec (.patchRowGroup a patch) s = .next t ∧ (arrayOf t a.toNat).groups = ar.groups.map (fun x => if x = g then h else x) ∧
          h.done = g.done ++ [n] ∧ h.grp = g.grp ∧ h.stage = g.stage ∧ (arrayOf t a.toNat).passes = ar.passes ∧
          planeAt (arrayOf t a.toNat) (!g.planeB) = planeAt ar (!g.planeB) ∧ t = { s with arrays := t.arrays } ∧
          (i.kind = .dw →
            let v := coreView s c (a.toNat / 4)
            let rs := (groupPlaces c p g.stage g.grp).map (fun t => (rowAt p g.stage t).2)
            let e := fun (w : State) (x y : Nat) => tget 0 (planeAt (arrayOf w a.toNat) g.planeB).entries (x * 256 + y)
            (∀ x y, x < planeRows c i → y < planeCols c i → x / 16 = n / 16 → y / 16 = n % 16 →
              e t x y = outerStep v c (xLay s c.desc) (256 * i.r + x) (256 * i.c + y) (e s x y) rs) ∧
            (∀ x y, y < 256 → x / 16 ≠ n / 16 ∨ y / 16 ≠ n % 16 → e t x y = e s x y)))

/-- CARRY_RELAY of a finished window of a PAIR's unit: its carries go to a FREE plane of the next unit's array, or across the seam into the hod
while it holds fewer than 16 tiles, and the relaying plane is FREE; without room they wait. HOD_DELIVERY takes the oldest tile of a running command
into
a FREE plane of its unit's array. The cell-step count goes with the carries (R61). -/
def Obligations.CarriesAreRelayed : Prop :=
  (∀ (a : BitVec 5) (s : State) (c : Cmd) (i j : Item) (k : Nat), unitsRun s = true → s.wbuf = [] → s.rbuf = [] →
    let ar := arrayOf s a.toNat
    let pl := ar.planeA
    let v := pl.resume.1
    pl.state = .active → pl.loaded = true → (ar.planeB.state ≠ .active ∨ ar.planeB.loaded = false) → findCmd s pl.key = some c →
    c.items[pl.item]? = some i → nextUnit c i = some (k, j) → mustStop c j = false → c.saved = false →
    (overSeam s c i j = true → hodUsed s < 16 → ∃ t, exec (.carryRelay a) s = .next t ∧
      t.hod = s.hod ++ [⟨c.key, i.r, v, i.c + 1, pl.count, 0, pl.entries⟩] ∧ arrayOf t a.toNat = { ar with planeA := planeFree } ∧
      (∀ b, b ≠ a.toNat → arrayOf t b = arrayOf s b) ∧ Others s t c.key ∧ t = { s with
          arrays := t.arrays, cmds := t.cmds, hod := t.hod, sts := t.sts }) ∧
    (overSeam s c i j = true → 16 ≤ hodUsed s → exec (.carryRelay a) s = .next s) ∧
    (∀ b, overSeam s c i j = false → j.array ≠ a.toNat → carryRoom s c k v j = some b → ∃ t, exec (.carryRelay a) s = .next t ∧
      let y := planeAt (arrayOf t j.array) b
      y.state = .loading ∧ y.loaded = true ∧ y.entries = pl.entries ∧ y.count = pl.count ∧ y.key = c.key ∧ y.item = k ∧ y.resume.1 = v ∧
        arrayOf t a.toNat = { ar with planeA := planeFree } ∧ (∀ d, d ≠ a.toNat → d ≠ j.array → arrayOf t d = arrayOf s d) ∧
        Others s t c.key ∧ t = { s with arrays := t.arrays, cmds := t.cmds }) ∧
    (overSeam s c i j = false → j.array ≠ a.toNat → carryRoom s c k v j = none → exec (.carryRelay a) s = .next s)) ∧
  ∀ (s : State) (h : HodTile) (rest : List HodTile) (c : Cmd) (k : Nat) (j : Item), unitsRun s = true → s.wbuf = [] → s.rbuf = [] → s.hod = h :: rest →
    findCmd s h.key = some c → c.saved = false → h.src = 0 →
    (c.items.mapIdx (fun k x => (k, x))).find? (fun x => x.2.kind == .stat && x.2.r == h.strip && x.2.c == h.kb) = some (k, j) →
    mustStop c j = false →
    (∀ b, carryRoom s c k h.window j = some b → ∃ t, exec .hodDelivery s = .next t ∧ t.hod = rest ∧
      let y := planeAt (arrayOf t j.array) b
      y.state = .loading ∧ y.loaded = true ∧ y.entries = h.entries ∧ y.count = h.count ∧ y.key = c.key ∧ y.item = k ∧ y.resume.1 = h.window ∧
        (∀ d, d ≠ j.array → arrayOf t d = arrayOf s d) ∧ t = { s with arrays := t.arrays, hod := t.hod, staged := t.staged }) ∧
    (carryRoom s c k h.window j = none → exec .hodDelivery s = .next s)

/-- FILLER_BRIDGE_EXPIRY notes that a clocked array's filler has outrun the bridge, and changes nothing else. STARVE of a patch that is stalled with
work before it, under a limit, notes the array and the patch, counts, and sets its core's event, once until the patch works again. Otherwise
nothing happens (log 4). -/
def Obligations.FillersAndStarvation : Prop :=
  (∀ (a : BitVec 5) (s : State), s.wbuf = [] → s.rbuf = [] →
    (unitsRun s = true → (arrayOf s a.toNat).on = true → (arrayOf s a.toNat).filler = false →
      ∃ t, exec (.fillerBridgeExpiry a) s = .next t ∧ arrayOf t a.toNat = { arrayOf s a.toNat with filler := true } ∧
        (∀ b, b ≠ a.toNat → arrayOf t b = arrayOf s b) ∧ t = { s with arrays := t.arrays }) ∧
    ((arrayOf s a.toNat).on = false ∨ (arrayOf s a.toNat).filler = true → exec (.fillerBridgeExpiry a) s = .next s)) ∧
  ∀ (a : BitVec 5) (patch : BitVec 8) (s : State), s.wbuf = [] → s.rbuf = [] → a.toNat < 24 →
    let ar := arrayOf s a.toNat
    let core := a.toNat / 4
    let starves := rd s (corWdogCtlLimitMs core) ≠ 0 ∧ patchStalled s a.toNat patch.toNat = true ∧ ar.starved.contains patch.toNat = false
    (starves → ∃ t, exec (.starve a patch) s = .next t ∧ rd t (corWdogStatArray core) = a.toNat % 4 ∧
      rd t (corWdogStatPatch core) = patch.toNat ∧ bitOf (rd t (hdrEvt (0x10 + core))) 8 = true ∧
      rd t (corWdogStatEvents core) = satAdd (corWdogStatEvents core).width (rd s (corWdogStatEvents core)) 1 ∧
      arrayOf t a.toNat = { ar with starved := patch.toNat :: ar.starved } ∧ (∀ b, b ≠ a.toNat → arrayOf t b = arrayOf s b) ∧
      StatusKept s t [0x04, 0x10 + core] ∧ t = { s with arrays := t.arrays, sts := t.sts, trace := t.trace, cport := t.cport }) ∧
    (¬ starves → exec (.starve a patch) s = .next s)

/-- TROWEL_FETCH of a product command first takes the ledger view where it needs one, once it may; then it asks for the next block a core of the
command
wants and has room for, which joins what that core holds, and writes nothing to memory. TROWEL_STORE stores what has left the edge and can be
written: each such element is stored, and no byte outside the elements of a plain output array changes. LCACHE_INV empties the layout cache. An
event whose condition does not hold changes nothing (log 4). -/
def Obligations.TrowelsFetchAndStore : Prop :=
  (∀ (r : CmdRef) (s : State) (c : Cmd), findCmd s (refKey r) = some c → s.wbuf = [] → s.rbuf = [] → unitsRun s = true → isProduct c.desc = true →
    c.phase = .started → heldBack s c = false → c.errs = [] → c.trapRow = none →
    (takesView c.desc = true → c.view = none → viewReady s c = true → ∃ t, exec (.trowelFetch r) s = .next t ∧
      findCmd t c.key = some { c with view := some s.ledger } ∧ Others s t c.key ∧ t = { s with cmds := t.cmds }) ∧
    (takesView c.desc = true → c.view = none → viewReady s c = false → exec (.trowelFetch r) s = .next s) ∧
    (takesView c.desc = false ∨ c.view ≠ none →
      ((∀ x ∈ c.items, fetchCore s c (x.array / 4) = none) → exec (.trowelFetch r) s = .next s) ∧
      ((∃ x ∈ c.items, fetchCore s c (x.array / 4) ≠ none) → ∃ t e, exec (.trowelFetch r) s = .next t ∧ e ∈ t.staged ∧ e.key = c.key ∧
        e.cells = [] ∧ (∃ x ∈ c.items, e.core = x.array / 4) ∧ Others s t c.key ∧
        t = { s with
            cmds := t.cmds, ledger := t.ledger, loadw := t.loadw, mreqs := t.mreqs, staged := t.staged, sts := t.sts
            trace := t.trace, cport := t.cport, mwait := t.mwait }))) ∧
  (∀ (r : CmdRef) (s : State) (c : Cmd), findCmd s (refKey r) = some c → s.wbuf = [] → s.rbuf = [] →
    let may := unitsRun s = true ∧ isProduct c.desc = true ∧ pStores c.desc = true ∧ c.phase = .started ∧ heldBack s c = false ∧ storeRun s c ≠ []
    (may → (∀ p ∈ storeRun s c, p.1 < pM c.desc ∧ p.2 < pNExt c.desc) → (∀ x ∈ c.items, x.array < 24) →
      ∃ t x, exec (.trowelStore r) s = .next t ∧ findCmd t c.key = some x ∧ (∀ p ∈ storeRun s c, outStored x p.1 p.2 = true) ∧ Others s t c.key ∧
        ((layoutAt s c.outRec).mx = false → ∀ a, Outside (layoutAt s c.outRec) (pM c.desc) (pNExt c.desc) a → t.byte a = s.byte a) ∧
        StatusKept s t ([0x08] ++ (List.range 6).map (0x10 + ·)) ∧ t = { s with
            cmds := t.cmds, mem := t.mem, mreqs := t.mreqs, sts := t.sts, mwait := t.mwait }) ∧
    (¬ may → exec (.trowelStore r) s = .next s)) ∧
  ∀ s : State, Reaches s 0x08 → ∃ t, exec .lcacheInv s = .next t ∧ t.lcache = [] ∧ t = { s with
      lcache := t.lcache, regData := 0, regErr := 0 }

/-- FOLD_BEGIN of a FOLDING plane in its turn begins a fold into a tile that is resident then, or, when the stamp refuses it, ends the tile of the
walk
and frees the plane with no tile changed. FOLD_END of a fold whose group was emptied drops its rows and frees the plane with no tile changed;
otherwise
the tile takes the stamp and is dirty, and no other tile or group changes. -/
def Obligations.PlanesFold : Prop :=
  (∀ (a : BitVec 5) (s : State) (b : Bool) (x : PlanePart) (more : List (Bool × PlanePart)) (c : Cmd) (i : Item), s.wbuf = [] → s.rbuf = [] → s.ras.damage = [] →
    waitingFolds s a.toNat = (b, x) :: more → (planeAt (arrayOf s a.toNat) b).parts = [x] → findCmd s x.key = some c →
    c.items[x.item]? = some i → unitsRun s = true →
    let f := itemFold s c.desc i
    foldTurn s c f.1 = true → tileHeld s (tileKey f.1 f.2.1) = false → c.trapRow = none → divertFor s c f.1 f.2.1 = none →
    (foldCheck s f.1 f.2.1 (genOf c f.1) (dStamp c.desc) = .refold → ∃ t y, exec (.foldBegin a) s = .next t ∧
      (planeAt (arrayOf t a.toNat) b).state = .free ∧ (∀ d, d ≠ a.toNat → arrayOf t d = arrayOf s d) ∧
      findCmd t c.key = some y ∧ y.items[x.item]? = some { i with st := .done } ∧ y.flags = c.flags ||| flRefold ∧ Others s t c.key ∧
      StatusKept s t [0x09] ∧ t = { s with arrays := t.arrays, cmds := t.cmds, sts := t.sts }) ∧
    (foldCheck s f.1 f.2.1 (genOf c f.1) (dStamp c.desc) = .go →
      (tileOf s f.1 f.2.1).state = .resident ∨ pinned (groupOf s f.1) = true ∨ 0 < freeFrames s →
      ∃ t, exec (.foldBegin a) s = .next t ∧
        t.folds = s.folds ++ [⟨a.toNat, b, c.key, x.item, f.1, f.2.1, dStamp c.desc, genOf c f.1⟩] ∧
        (tileOf t f.1 f.2.1).state = .resident ∧ (∀ h k, tileKey h k ≠ tileKey f.1 f.2.1 → tileOf t h k = tileOf s h k) ∧
        StatusKept s t [0x09] ∧ t = { s with
            clock := t.clock, folds := t.folds, frames := t.frames, sts := t.sts, tiles := t.tiles })) ∧
  ∀ (a : BitVec 5) (s : State) (f : FoldRun) (c : Cmd) (i : Item) (x : PlanePart), s.wbuf = [] → s.rbuf = [] → s.ras.damage = [] →
    s.folds.find? (fun f => f.array == a.toNat) = some f → findCmd s f.key = some c → c.items[f.item]? = some i →
    (planeAt (arrayOf s a.toNat) f.plane).parts = [x] → x.key = f.key → x.item = f.item → unitsRun s = true →
    ((groupOf s f.group).gen ≠ f.gen → ∃ t, exec (.foldEnd a) s = .next t ∧ t.folds = s.folds.erase f ∧
      (planeAt (arrayOf t a.toNat) f.plane).state = .free ∧ Others s t c.key ∧ StatusKept s t [0x09] ∧ t = { s with
          arrays := t.arrays, cmds := t.cmds, folds := t.folds, sts := t.sts }) ∧
    ((groupOf s f.group).gen = f.gen → (tileOf s f.group f.tile).state = .resident →
      ∃ t, exec (.foldEnd a) s = .next t ∧ t.folds = s.folds.erase f ∧ (planeAt (arrayOf t a.toNat) f.plane).state = .free ∧
        (tileOf t f.group f.tile).stamp = dStamp c.desc ∧ (tileOf t f.group f.tile).dirty = true ∧
        (∀ h k, tileKey h k ≠ tileKey f.group f.tile → tileOf t h k = tileOf s h k) ∧ (∀ h, h ≠ f.group → groupOf t h = groupOf s h) ∧
        Others s t c.key ∧ StatusKept s t [0x04, 0x09] ∧ t = { s with
            arrays := t.arrays, clock := t.clock, cmds := t.cmds, folds := t.folds, frames := t.frames, groups := t.groups
            sts := t.sts, tiles := t.tiles, trace := t.trace, cport := t.cport })

/-- TILE_FETCH makes a tile of the group's shape that something needs resident in a free frame, with its stamp, an UNTOUCHED tile that is not
initialised from its home with every entry +0. TILE_EVICT, when a frame is wanted and none is free, makes its victim HOME, writes nothing for a clean
one and only home entries of the tile for another; an event whose condition does not hold changes nothing (log 4). -/
def Obligations.TilesMoveBetweenFramesAndHomes : Prop :=
  (∀ (g : BitVec 6) (k : BitVec 14) (s : State), s.wbuf = [] → s.rbuf = [] →
    let x := groupOf s g.toNat
    let may := unitsRun s = true ∧ k.toNat < groupTiles x ∧ (tileOf s g.toNat k.toNat).state ≠ .resident ∧
      tileWanted s g.toNat k.toNat = true ∧ (pinned x = true ∨ 0 < freeFrames s)
    (may → ∃ t, exec (.tileFetch g k) s = .next t ∧ (tileOf t g.toNat k.toNat).state = .resident ∧
      (tileOf t g.toNat k.toNat).stamp = (tileOf s g.toNat k.toNat).stamp ∧
      ((tileOf s g.toNat k.toNat).state = .untouched → x.init = false → ∀ e, readEntry t g.toNat k.toNat e = 0) ∧
      (∀ h j, tileKey h j ≠ tileKey g.toNat k.toNat → tileOf t h j = tileOf s h j) ∧
      StatusKept s t [0x09] ∧ t.mem = s.mem ∧ t = { s with
          clock := t.clock, frames := t.frames, sts := t.sts, tiles := t.tiles, ras := { s.ras with damage := t.ras.damage } }) ∧
    (¬ may → exec (.tileFetch g k) s = .next s)) ∧
  ∀ s : State, s.wbuf = [] → s.rbuf = [] → s.ras.damage = [] →
    (unitsRun s = false ∨ freeFrames s ≠ 0 ∨ frameWanted s = false ∨ victim s = none → exec .tileEvict s = .next s) ∧
    (∀ v, unitsRun s = true → freeFrames s = 0 → frameWanted s = true → victim s = some v →
      ∃ t, exec .tileEvict s = .next t ∧ (tget tileEmpty t.tiles v).state = .home ∧ (tget tileEmpty t.tiles v).dirty = false ∧
        (tget tileEmpty t.tiles v).stamp = (tget tileEmpty s.tiles v).stamp ∧
        (∀ j, j ≠ v → tget tileEmpty t.tiles j = tget tileEmpty s.tiles j) ∧
        ((tget tileEmpty s.tiles v).dirty = false → t.mem = s.mem) ∧
        (∀ a, (∀ p ∈ tileCells (groupOf s (v / 2 ^ 14)) (v % 2 ^ 14),
          a < homeEntry (groupOf s (v / 2 ^ 14)) p.2.1 p.2.2 ∨ homeEntry (groupOf s (v / 2 ^ 14)) p.2.1 p.2.2 + 8 ≤ a) → t.byte a = s.byte a) ∧
        StatusKept s t [0x09] ∧ t = { s with frames := t.frames, mem := t.mem, sts := t.sts, tiles := t.tiles })

/-- HANDOFF_RECORD puts the oldest waiting record, with the time and HEAD as its SEQ, at HEAD of the ring when it has room and no other record is on
its way, and asks for its acknowledgement; a full ring keeps it waiting and sets HOFF_FULL. TRACE_RECORD_WRITE puts the oldest trace record at its
entry
of the trace ring and advances HEAD; INTERRUPT_MESSAGE sends the oldest message as an 8-byte write and counts it. That the bytes are in memory at
once is the model's choice (log 54). -/
def Obligations.RecordsAndMessagesLeaveInOrder : Prop :=
  (∀ (s : State) (h : HandOff) (rest : List HandOff), unitsRun s = true → s.wbuf = [] → s.rbuf = [] → s.handoffs = h :: rest →
    let n := h.bytes.length
    let head := rd s sivHringHeadIndex
    let size := 2 ^ rd s sivHringCtlSizeLog2
    let used := (head + 2 ^ 32 - rd s sivHringTailIndex) % 2 ^ 32
    let addr := rd s sivHringBaseAddr + 64 * (head % size)
    (handoffWaits s = true → exec .handoffRecord s = .next s) ∧
    (handoffWaits s = false → used < size → ∃ t, exec .handoffRecord s = .next t ∧ (∃ m ∈ openReqs t, m.write = true ∧ m.why = .handoff h.key) ∧
      t.bytes addr n = h.bytes ∧ t.num (addr + n) 8 = now s % 2 ^ 64 ∧ t.num (addr + n + 8) 4 = head % 2 ^ 32 ∧
      (∀ a, a < addr ∨ addr + n + 16 ≤ a → t.byte a = s.byte a) ∧ t = { s with mem := t.mem, mreqs := t.mreqs, mwait := t.mwait }) ∧
    (handoffWaits s = false → size ≤ used → ∃ t, exec .handoffRecord s = .next t ∧ bitOf (rd t (hdrEvt 0x0A)) 9 = true ∧
      StatusKept s t [0x04, 0x0A] ∧ t = { s with sts := t.sts, trace := t.trace, cport := t.cport })) ∧
  ∀ s : State, s.wbuf = [] → s.rbuf = [] → awake s = true → portClock s = true →
    (∀ b rest, s.trace = b :: rest →
      let addr := rd s trcRingBaseAddr + rd s trcHeadCount % 2 ^ rd s trcRingCtlSizeLog2 * 32
      ∃ t, exec .traceRecordWrite s = .next t ∧ t.trace = rest ∧ t.bytes addr b.length = b ∧ (∀ a, a < addr ∨ addr + b.length ≤ a → t.byte a = s.byte a) ∧
        rd t trcHeadCount = (rd s trcHeadCount + 1) % 2 ^ 32 ∧ FieldsKept s t [trcHeadCount] ∧ t = { s with
            trace := t.trace, mem := t.mem, sts := t.sts }) ∧
    (∀ m rest, s.cport = m :: rest → ∃ t, exec .interruptMessage s = .next t ∧ t.cport = rest ∧ t.num m.addr 8 = m.word % 2 ^ 64 ∧
      (∀ a, a < m.addr ∨ m.addr + 8 ≤ a → t.byte a = s.byte a) ∧
      rd t glbIrqStatMsgs = satAdd glbIrqStatMsgs.width (rd s glbIrqStatMsgs) 1 ∧ FieldsKept s t [glbIrqStatMsgs] ∧ t = { s with
          cport := t.cport, mem := t.mem, sts := t.sts })

/-! ### The register port and the pages of the engine (16, 18, 02, 13) -/

/-- A register access to an offset outside every page answers UNMAPPED, and one to a page but GLB, PWR and RAS in KEEP answers ASLEEP, and
neither has any effect; without power or under a reset the port does not answer. -/
def Obligations.RegisterPortAnswers : Prop :=
  ∀ (i : Instr) (page : Nat) (s : State), s.wbuf = [] → s.rbuf = [] →
    (∃ a v, i = .regWrite a v ∧ page = a.toNat * 8 / 4096) ∨
      (∃ p, page = BitVec.toNat p ∧ (i = .ctlClr p ∨ i = .clrUe p ∨ ∃ m, i = .evtClear p m)) ∨
      (page = 0x00 ∧ (i = .arm ∨ i = .disarm ∨ ∃ v, i = .arrayLiveWrite v ∨ i = .riskLevelWrite v)) ∨
      (page = 0x02 ∧ ∃ v, i = .powerTarget v) ∨ (page = 0x03 ∧ i = .logData3Read) ∨
      (page = 0x04 ∧ ∃ v, i = .traceMark v ∨ ∃ b, i = .trcRingWrite b v) ∨ (page = 0x07 ∧ (i = .advDataRead ∨ ∃ v, i = .advDataWrite v)) ∨
      (page = 0x08 ∧ i = .lcacheInv) ∨ (page = 0x0D ∧ i = .statDataRead) ∨
      (∃ q, page = 0x30 + BitVec.toNat q ∧
        (i = .resume q ∨ (∃ v, i = .doorbell q v ∨ i = .setptr q v) ∨ ∃ v, i = .queueEnable q v ∨ i = .queueDisable q v)) →
    (awake s = false → exec i s = .next s) ∧
    (awake s = true → pageExists page = false → ∃ t, exec i s = .next t ∧ t = { s with regData := 0, regErr := 1 }) ∧
    (awake s = true → pageExists page = true → s.power.state = .keep → page ≠ 0x00 → page ≠ 0x02 → page ≠ 0x03 →
      ∃ t, exec i s = .next t ∧ t = { s with regData := 0, regErr := 2 })

/-- REG_WRITE of a register of TST, LDG, SCA, RSU or UPD whose fields have no behaviour of their own: each RW field takes its bits of the
written value; one given a reserved encoding keeps its value and BAD_VALUE is set; every other field of the register, every other field of the
page but the event bits, and every other page keep theirs. -/
def Obligations.RegWriteSetsItsFields : Prop :=
  ∀ (addr : BitVec 17) (v : Word) (s : State) (page off : Nat), page ∈ [0x05, 0x06, 0x0B, 0x0C, 0x0D] → 0x100 ≤ off →
    off < 4096 → addr.toNat * 8 = page * 4096 + off → Reaches s page →
    ∃ t, exec (.regWrite addr v) s = .next t ∧
      (∀ f ∈ regFields page off, f.acc = .rw → fieldLegal f (bitsOf v.toNat f.lo f.width) = true → rd t f = bitsOf v.toNat f.lo f.width) ∧
      (∀ f ∈ regFields page off, f.acc = .rw → fieldLegal f (bitsOf v.toNat f.lo f.width) = false →
        rd t f = rd s f ∧ bitOf (rd t (hdrEvt page)) 1 = true) ∧
      FieldsKept s t ((regFields page off).filter (fun f => f.acc == .rw) ++ eventFields page) ∧ t = { s with
          cfg := t.cfg, sts := t.sts, trace := t.trace, cport := t.cport, regData := 0, regErr := 0 }

/-- CTL.CLR gives each counter of the page, and each field that refers to the last clear, its reset value, and changes no other field; on RAS the
counts of every class and bank are 0 too, and no bucket changes its level. CLR_UE clears UE_SEEN of the page alone. A W1C write of EVT
clears the bits written as 1, and sends an interrupt message when it leaves the summary of the page's vector at 1. Which fields of GLB and RAS refer
to the last clear is log 26's reading. -/
def Obligations.CountersAndEventsAreCleared : Prop :=
  ∀ (page : BitVec 8) (s : State), Reaches s page.toNat →
    (∃ t, exec (.ctlClr page) s = .next t ∧ (∀ f ∈ clearFields page.toNat, rd t f = f.reset) ∧ FieldsKept s t (clearFields page.toNat) ∧
      (page.toNat ≠ 0x03 → t.ras = s.ras) ∧
      (page.toNat = 0x03 → t.ras.banks = [] ∧ ∀ k, bucketOf t k = ⟨(bucketOf s k).level, 0, 0, 0⟩) ∧
      t = { s with
          sts := t.sts, ras := { s.ras with buckets := t.ras.buckets, banks := t.ras.banks }, regData := 0, regErr := 0 }) ∧
    (∃ t, exec (.clrUe page) s = .next t ∧ rd t (hdrStatUeSeen page.toNat) = 0 ∧ FieldsKept s t [hdrStatUeSeen page.toNat] ∧
      t = { s with sts := t.sts, regData := 0, regErr := 0 }) ∧
    ∀ mask : Word, ∃ t, exec (.evtClear page mask) s = .next t ∧
      (∀ b < 32, bitOf (rd t (hdrEvt page.toNat)) b = (bitOf (rd s (hdrEvt page.toNat)) b && !(bitOf mask.toNat b))) ∧
      FieldsKept s t [hdrEvt page.toNat] ∧
      t.cport = (if vecSummary t (pageVector page.toNat) then (irqMessage s (pageVector page.toNat)).cport else s.cport) ∧
      t = { s with sts := t.sts, cport := t.cport, regData := 0, regErr := 0 }

/-- ARRAY_LIVE is written once: the first write sets LIVE, GRADE and LOCKED, a reserved GRADE leaving 0x0 and setting BAD_VALUE, and MAP_BAD exactly
when the grade is 0, the count of LIVE is not the grade's, or a core has fewer than two live arrays; a later write sets LOCKED_WRITE alone. A
write of RISK.LEVEL that crosses THRESHOLD from below fires an ARMED snapshot, and otherwise sets RISK_UNARMED (in ARMING and RUNNING too: log 52).
ARM asks for the
descriptor, and DISARM turns ARMED to IDLE. -/
def Obligations.GlbWritesAct : Prop :=
  ∀ s : State, Reaches s 0x00 →
    (∀ v : Word, let live := bitsOf v.toNat 0 24
      let g := bitsOf v.toNat 24 4
      (rd s glbArrayLiveLocked = 1 → ∃ t, exec (.arrayLiveWrite v) s = .next t ∧ bitOf (rd t (hdrEvt 0x00)) 0 = true ∧
        FieldsKept s t (eventFields 0x00) ∧ t = { s with
            sts := t.sts, trace := t.trace, cport := t.cport, regData := 0, regErr := 0 }) ∧
      (rd s glbArrayLiveLocked ≠ 1 → ∃ t, exec (.arrayLiveWrite v) s = .next t ∧ rd t glbArrayLiveLive = live ∧ rd t glbArrayLiveLocked = 1 ∧
        rd t glbArrayLiveGrade = (if g ≤ 4 then g else 0) ∧ (4 < g → bitOf (rd t (hdrEvt 0x00)) 1 = true) ∧
        (rd t glbArrayLiveMapBad = 1 ↔ g = 0 ∨ 4 < g ∨ (g = 1 ∧ popcount live 24 ≠ 24) ∨ (g = 2 ∧ popcount live 24 ≠ 22) ∨
          (g = 3 ∧ popcount live 24 ≠ 20) ∨ (g = 4 ∧ popcount live 24 ≠ 16) ∨ ∃ c < 6, popcount (bitsOf live (4 * c) 4) 4 < 2) ∧
        (rd t glbArrayLiveMapBad = 1 → bitOf (rd t (hdrEvt 0x00)) 14 = true) ∧
        FieldsKept s t ([glbArrayLiveLive, glbArrayLiveGrade, glbArrayLiveLocked, glbArrayLiveMapBad] ++ eventFields 0x00) ∧
        t = { s with cfg := t.cfg, sts := t.sts, trace := t.trace, cport := t.cport, regData := 0, regErr := 0 })) ∧
    (∀ v : Word, let new := bitsOf v.toNat 0 4
      let crosses := rd s glbRiskLevel < rd s glbSnapArmThreshold ∧ rd s glbSnapArmThreshold ≤ new
      (¬ crosses → ∃ t, exec (.riskLevelWrite v) s = .next t ∧ rd t glbRiskLevel = new ∧ FieldsKept s t [glbRiskLevel] ∧
        t = { s with cfg := t.cfg, regData := 0, regErr := 0 }) ∧
      (crosses → s.snap.state ≠ .armed → ∃ t, exec (.riskLevelWrite v) s = .next t ∧ rd t glbRiskLevel = new ∧
        bitOf (rd t (hdrEvt 0x00)) 9 = true ∧ FieldsKept s t (glbRiskLevel :: eventFields 0x00) ∧ t = { s with
            cfg := t.cfg, sts := t.sts, trace := t.trace, cport := t.cport, regData := 0, regErr := 0 }) ∧
      (crosses → s.snap.state = .armed → ∃ t x, exec (.riskLevelWrite v) s = .next t ∧ rd t glbRiskLevel = new ∧
        bitOf (rd t (hdrEvt 0x00)) 8 = true ∧ rd t glbSnapTimeTime = now s % 2 ^ 64 ∧ t.snap = { s.snap with state := .running } ∧
        t.cmds = s.cmds ++ [x] ∧ x.key = firedKey ∧ x.desc = s.snap.desc ∧ x.phase = .started ∧
        FieldsKept s t ([glbRiskLevel, glbSnapTimeTime] ++ eventFields 0x00) ∧ t = { s with
            cfg := t.cfg, sts := t.sts, snap := t.snap, cmds := t.cmds, trace := t.trace, cport := t.cport, regData := 0
            regErr := 0 })) ∧
    (s.snap.state = .idle → ∃ t, exec .arm s = .next t ∧ t.snap = { s.snap with state := .arming } ∧
      t.mreqs = (if unitsRun s then (issue s true false (rd s glbSnapDescAddr) 128 .snapDesc).mreqs else s.mreqs) ∧
      t = { s with snap := t.snap, mreqs := t.mreqs, mwait := t.mwait, regData := 0, regErr := 0 }) ∧
    (s.snap.state ≠ .idle → ∃ t, exec .arm s = .next t ∧ t = { s with regData := 0, regErr := 0 }) ∧
    (s.snap.state = .armed → ∃ t, exec .disarm s = .next t ∧ t.snap = snapReset ∧ rd t glbSnapArmOverridden = 0 ∧
      FieldsKept s t [glbSnapArmOverridden] ∧ t = { s with snap := t.snap, sts := t.sts, regData := 0, regErr := 0 }) ∧
    (s.snap.state ≠ .armed → ∃ t, exec .disarm s = .next t ∧ t = { s with regData := 0, regErr := 0 })

/-- A write of the trace ring's base or size is accepted while SRC_EN is 0 and the FIFO is empty, and then HEAD and TAIL are 0; a value the
field does not take leaves the field as it was and sets BAD_VALUE. Any other such write is ignored and sets BAD_VALUE, as is a write of TAIL
that would pass HEAD. A MARK write puts its record into the FIFO, or counts its loss and sets TRC_DROP. -/
def Obligations.TraceRingTakesWritesAndMarks : Prop :=
  (∀ (ctl : Bool) (v : Word) (s : State), Reaches s 0x04 →
    let f := if ctl then trcRingCtlSizeLog2 else trcRingBaseAddr
    let x := bitsOf v.toNat f.lo f.width
    let legal := if ctl then x = 0 ∨ 8 ≤ x ∧ x ≤ 24 else v.toNat % 32 = 0
    let open' := rd s trcSrcEnSources = 0 ∧ s.trace = []
    (open' → legal → ∃ t, exec (.trcRingWrite ctl v) s = .next t ∧ rd t f = x ∧ rd t trcHeadCount = 0 ∧ rd t trcTailCount = 0 ∧
      FieldsKept s t [f, trcHeadCount, trcTailCount] ∧ t = { s with cfg := t.cfg, sts := t.sts, regData := 0, regErr := 0 }) ∧
    (open' → ¬ legal → ∃ t, exec (.trcRingWrite ctl v) s = .next t ∧ rd t f = rd s f ∧ bitOf (rd t (hdrEvt 0x04)) 1 = true ∧
      FieldsKept s t ([trcHeadCount, trcTailCount] ++ eventFields 0x04) ∧ t = { s with
          cfg := t.cfg, sts := t.sts, trace := t.trace, cport := t.cport, regData := 0, regErr := 0 }) ∧
    (¬ open' → ∃ t, exec (.trcRingWrite ctl v) s = .next t ∧ bitOf (rd t (hdrEvt 0x04)) 1 = true ∧
      FieldsKept s t (eventFields 0x04) ∧ t = { s with
          sts := t.sts, trace := t.trace, cport := t.cport, regData := 0, regErr := 0 })) ∧
  (∀ (v : Word) (s : State), Reaches s 0x04 →
    (serialLt (rd s trcHeadCount) (v.toNat % 2 ^ 32) = false → ∃ t, exec (.regWrite 0x824#17 v) s = .next t ∧
      rd t trcTailCount = v.toNat % 2 ^ 32 ∧ FieldsKept s t [trcTailCount] ∧ t = { s with
          cfg := t.cfg, regData := 0, regErr := 0 }) ∧
    (serialLt (rd s trcHeadCount) (v.toNat % 2 ^ 32) = true → ∃ t, exec (.regWrite 0x824#17 v) s = .next t ∧
      bitOf (rd t (hdrEvt 0x04)) 1 = true ∧ FieldsKept s t (eventFields 0x04) ∧ t = { s with
          sts := t.sts, trace := t.trace, cport := t.cport, regData := 0, regErr := 0 })) ∧
  (∀ (v : Word) (s : State), Reaches s 0x04 →
    (traceOn s 8 = true → traceDrop s = none → ∃ t, exec (.traceMark v) s = .next t ∧
      t.trace = s.trace ++ [natLE (now s) 8 ++ natLE 8 1 ++ natLE 0 7 ++ natLE v.toNat 8 ++ natLE 0 8] ∧ t = { s with
          trace := t.trace, regData := 0, regErr := 0 }) ∧
    (traceOn s 8 = true → ∀ d, traceDrop s = some d → ∃ t, exec (.traceMark v) s = .next t ∧ bitOf (rd t (hdrEvt 0x04)) 8 = true ∧
      s.trace = t.trace ∧ FieldsKept s t (eventFields 0x04) ∧ t = { s with
          sts := t.sts, cport := t.cport, regData := 0, regErr := 0 }) ∧
    (traceOn s 8 = false → ∃ t, exec (.traceMark v) s = .next t ∧ t = { s with regData := 0, regErr := 0 }))

/-- ADV_DATA_READ and STAT_DATA_READ return the word their address names, and LOG_DATA3_READ the last 8 bytes of the selected record; with
INC set the address then advances by one, carrying into the layer or ID. ADV_DATA_WRITE sets the config masks of word 0 and leaves the layer awaiting
its evaluation (log 31), and any other word is refused with BAD_VALUE. -/
def Obligations.AddressedWordsAdvance : Prop :=
  (∀ s : State, Reaches s 0x07 →
    let at' := rd s fmtAdvAddrLayer * 64 + rd s fmtAdvAddrWord + 1
    let moved := fun (t : State) => if rd s fmtAdvAddrInc = 1 then
      rd t fmtAdvAddrWord = at' % 64 ∧ rd t fmtAdvAddrLayer = at' / 64 % 256
      else rd t fmtAdvAddrWord = rd s fmtAdvAddrWord ∧ rd t fmtAdvAddrLayer = rd s fmtAdvAddrLayer
    (∃ t, exec .advDataRead s = .next t ∧ t.regData = advSelected s ∧ moved t ∧ FieldsKept s t [fmtAdvAddrWord, fmtAdvAddrLayer] ∧
      t = { s with cfg := t.cfg, regData := t.regData, regErr := 0 }) ∧
    ∀ v : Word,
      (rd s fmtAdvAddrSet = 0 → rd s fmtAdvAddrWord = 0 → ∃ t, exec (.advDataWrite v) s = .next t ∧ moved t ∧
        (layerOf t (rd s fmtAdvAddrLayer)).dxMask = bitsOf v.toNat 0 10 ∧ (layerOf t (rd s fmtAdvAddrLayer)).homeMask = bitsOf v.toNat 16 2 ∧
        (layerOf t (rd s fmtAdvAddrLayer)).stale = true ∧ (layerOf t (rd s fmtAdvAddrLayer)).live = (layerOf s (rd s fmtAdvAddrLayer)).live ∧
        (∀ l, l ≠ rd s fmtAdvAddrLayer → layerOf t l = layerOf s l) ∧
        FieldsKept s t [fmtAdvAddrWord, fmtAdvAddrLayer] ∧ t = { s with
            cfg := t.cfg, advisor := t.advisor, regData := 0, regErr := 0 }) ∧
      (rd s fmtAdvAddrSet ≠ 0 ∨ rd s fmtAdvAddrWord ≠ 0 → ∃ t, exec (.advDataWrite v) s = .next t ∧ moved t ∧
        bitOf (rd t (hdrEvt 0x07)) 1 = true ∧ FieldsKept s t ([fmtAdvAddrWord, fmtAdvAddrLayer] ++ eventFields 0x07) ∧
        t = { s with cfg := t.cfg, sts := t.sts, trace := t.trace, cport := t.cport, regData := 0, regErr := 0 })) ∧
  (∀ s : State, Reaches s 0x0D →
    let at' := rd s updStatAddrId * 4 + rd s updStatAddrWord + 1
    ∃ t, exec .statDataRead s = .next t ∧ t.regData = statSelected s ∧
      (rd s updStatAddrInc = 1 → rd t updStatAddrWord = at' % 4 ∧ rd t updStatAddrId = at' / 4 % 2 ^ updStatAddrId.width) ∧
      FieldsKept s t (if rd s updStatAddrInc = 1 then [updStatAddrWord, updStatAddrId] else []) ∧ t = { s with
          cfg := t.cfg, regData := t.regData, regErr := 0 }) ∧
  (∀ s : State, Reaches s 0x03 → ∃ t, exec .logData3Read s = .next t ∧ t.regData = logWord s 3 ∧
    (rd s rasLogSelInc = 1 → rd t rasLogSelIndex = (rd s rasLogSelIndex + 1) % 256) ∧
    FieldsKept s t (if rd s rasLogSelInc = 1 then [rasLogSelIndex] else []) ∧ t = { s with
        cfg := t.cfg, regData := t.regData, regErr := 0 }) ∧
  ∀ (layer : BitVec 8) (s : State), s.wbuf = [] → s.rbuf = [] →
    (unitsRun s = true → (layerOf s layer.toNat).stale = true → ∃ t, exec (.advisorEvaluation layer) s = .next t ∧
      (layerOf t layer.toNat).stale = false ∧ (layerOf t layer.toNat).live = (layerOf s layer.toNat).live ∧
      (layerOf t layer.toNat).stCounts = (layerOf s layer.toNat).stCounts ∧
      (∀ k, k ≠ layer.toNat → layerOf t k = layerOf s k) ∧ t = { s with advisor := t.advisor }) ∧
    (unitsRun s = false ∨ (layerOf s layer.toNat).stale = false → exec (.advisorEvaluation layer) s = .next s)

/-! ### Power, clocks and load steps (14, 16) -/

/-- The clock sequences: each of CLOCK_REQUEST, PCLK_ACK_RISE, WAKE_DONE, SLEEP_QUIESCENCE_END, PCLK_ACK_FALL, RETENTION_ENTRY_DONE and
CLK_SLOW takes the engine one step along, from the one stage it belongs to; in any other stage nothing happens (log 4). An acknowledge that falls
while it is asked for sets CLK_LOST. -/
def Obligations.ClocksFollowTheHandshake : Prop :=
  (∀ s : State, s.wbuf = [] → s.rbuf = [] → awake s = false → (∀ i ∈ [Instr.clockRequest, .wakeDone, .sleepQuiescenceEnd, .retentionEntryDone, .clkSlow],
      exec i s = .next s) ∧ (∃ t, exec .pclkAckRise s = .next t ∧ t = { s with power := { s.power with ack := true } }) ∧
    ∃ t, exec .pclkAckFall s = .next t ∧ t = { s with power := { s.power with ack := false } }) ∧
  ∀ s : State, s.wbuf = [] → s.rbuf = [] → awake s = true →
    (s.power.clk = .leavingRetention ∧ s.power.ack = false → ∃ t, exec .clockRequest s = .next t ∧
      t = { s with power := { s.power with clk := .requesting, req := true, slow := false } }) ∧
    (¬ (s.power.clk = .leavingRetention ∧ s.power.ack = false) → exec .clockRequest s = .next s) ∧
    (s.power.req = true ∧ s.power.ack = false → ∃ t, exec .pclkAckRise s = .next t ∧
      t = { s with
          power := { s.power with ack := true, slow := false, clk := if s.power.clk = .requesting then .starting else s.power.clk } }) ∧
    (¬ (s.power.req = true ∧ s.power.ack = false) → exec .pclkAckRise s = .next s) ∧
    (s.power.clk = .starting → s.power.ack = true → s.power.state ≠ .idle → workReady s = false → s.snap.state ≠ .arming →
      target s ≠ 0 ∨ keepOk s = false → ∃ t, exec .wakeDone s = .next t ∧ bitOf (rd t (hdrEvt 0x02)) 11 = true ∧
        FieldsKept s t (eventFields 0x02) ∧ t = { s with
            sts := t.sts, trace := t.trace, cport := t.cport, power := { s.power with state := .idle, clk := .running } }) ∧
    (s.power.clk ≠ .starting ∨ s.power.ack = false → exec .wakeDone s = .next s) ∧
    (s.power.clk = .quiescing → s.power.ack = true → target s = 0 → keepOk s = true → ∃ t, exec .sleepQuiescenceEnd s = .next t ∧
      FieldsKept s t (eventFields 0x04) ∧ t = { s with
          sts := t.sts, trace := t.trace, cport := t.cport
          power := { s.power with clk := .releasing, req := false, slow := false } }) ∧
    (s.power.clk = .quiescing → s.power.ack = true → target s ≠ 0 → workReady s = false → s.power.state = .idle →
      ∃ t, exec .sleepQuiescenceEnd s = .next t ∧ t = { s with power := { s.power with clk := .running, restart := false } }) ∧
    (s.power.clk ≠ .quiescing ∨ s.power.ack = false → exec .sleepQuiescenceEnd s = .next s) ∧
    (s.power.ack = true → s.power.req = false → ∃ t, exec .pclkAckFall s = .next t ∧
      t = { s with
          power := { s.power with ack := false, slow := false, clk := if s.power.clk = .releasing then .enteringRetention else s.power.clk } }) ∧
    (s.power.ack = true → s.power.req = true → ∃ t, exec .pclkAckFall s = .next t ∧ bitOf (rd t (hdrEvt 0x02)) 10 = true ∧
      FieldsKept s t (eventFields 0x02) ∧ t = { s with
          sts := t.sts, trace := t.trace, cport := t.cport, power := { s.power with ack := false, slow := false } }) ∧
    (s.power.ack = false → exec .pclkAckFall s = .next s) ∧
    (s.power.clk = .enteringRetention → s.power.state ≠ .keep → target s = 0 → firedWaits s = false →
      ∃ t, exec .retentionEntryDone s = .next t ∧ bitOf (rd t (hdrEvt 0x02)) 11 = true ∧
        FieldsKept s t (eventFields 0x02) ∧ t = { s with
            sts := t.sts, trace := t.trace, cport := t.cport
            power := { s.power with state := .keep, clk := .stopped, restart := false } }) ∧
    (s.power.clk ≠ .enteringRetention → exec .retentionEntryDone s = .next s) ∧
    (s.power.slow = false ∧ s.power.req ≠ s.power.ack → ∃ t, exec .clkSlow s = .next t ∧ bitOf (rd t (hdrEvt 0x02)) 9 = true ∧
      FieldsKept s t (eventFields 0x02) ∧ t = { s with
          sts := t.sts, trace := t.trace, cport := t.cport, power := { s.power with slow := true } }) ∧
    (s.power.slow = true ∨ s.power.req = s.power.ack → exec .clkSlow s = .next s)

/-- A write of TARGET sets the fields of STATE_CTL, a reserved TARGET keeping the old one with BAD_VALUE; raised in KEEP with the clocks stopped it
starts the wake, lowered in RAMP_UP or ACTIVE it starts the DRAIN, and raised again in DRAIN it returns to ACTIVE. -/
def Obligations.TargetsMoveTheEngine : Prop :=
  ∀ (v : Word) (s : State), Reaches s 0x02 →
    let new := bitsOf v.toNat pwrStateCtlTarget.lo pwrStateCtlTarget.width
    ∃ t, exec (.powerTarget v) s = .next t ∧ StatusKept s t [0x01, 0x02, 0x04] ∧
      t = { s with
          cfg := t.cfg, cmds := t.cmds, power := t.power, mem := t.mem, mreqs := t.mreqs, images := t.images, hod := t.hod
          dyCache := t.dyCache, free := t.free, arrays := t.arrays, sts := t.sts, trace := t.trace, cport := t.cport
          mwait := t.mwait, regData := 0, regErr := 0 } ∧
      (2 < new → target t = target s ∧ bitOf (rd t (hdrEvt 0x02)) 1 = true) ∧
      (new ≤ 2 → target t = new ∧
        (s.power.state = .keep → s.power.clk = .stopped → s.power.ack = false → new ≠ 0 → t.power = { s.power with clk := .leavingRetention }) ∧
        (s.power.state = .rampUp ∨ s.power.state = .active → new < 2 → workRemains s = true → rd t pwrStateCtlDrainMode = 0 →
          t.power = { s.power with state := .drain } ∧ t.cmds = s.cmds) ∧
        (s.power.state = .drain → new = 2 → workReady s = true → t.power = { s.power with state := .active }) ∧
        (s.power.state = .idle → s.power.clk ≠ .running → target s < new →
          t.power = { s.power with restart := true } ∧ bitOf (rd t (hdrEvt 0x02)) 8 = true))

/-- GOVERNOR_TICK takes the T-port's time, leaves at most the credit it held and gained, lowers the throttle by at most one level, and writes CUR_EST;
with nothing pending credit is 0 and no array changes. When ticks come is the sender's affair (log 63). A throttle rise acts at once. The host's
budget is read as 0, or 16 to
256. -/
def Obligations.TheGovernorPacesSteps : Prop :=
  (∀ (time : BitVec 64) (s : State), s.wbuf = [] → s.rbuf = [] → (awake s = false → exec (.governorTick time) s = .next s) ∧
    (awake s = true → ∃ t, exec (.governorTick time) s = .next t ∧ rd t pwrCurEstAmps = currentEstimate t % 2 ^ 16 ∧
      t.power.curOk = true ∧
      (s.tb.valid = true → t.tb = { s.tb with time := max s.tb.time time.toNat, largest := max s.tb.largest (max s.tb.time time.toNat) }) ∧
      (s.tb.valid = false → t.tb = s.tb ∧ bitOf (rd t (hdrEvt 0x00)) 13 = true) ∧
      t.quiet = (if portClock s then s.quiet - 30 else s.quiet) ∧
      t.power.credit ≤ s.power.credit + 16 * budget s ∧ t.power.thrEff ≤ s.power.thrEff ∧ s.power.thrEff ≤ t.power.thrEff + 1 ∧
      (portClock s = false → t.arrays = s.arrays) ∧
      (portClock s = true → govPending s = false → (∀ a < 24, failedArray s a = false) →
        (∀ l ∈ allLanes s, (arrayOf s l.d).on = true ∨ laneWork s l = none) → t.arrays = s.arrays ∧ t.power.credit = 0) ∧
      StatusKept s t [0x00, 0x02, 0x04] ∧ t = { s with
          power := t.power, quiet := t.quiet, sts := t.sts, arrays := t.arrays, tb := t.tb, trace := t.trace, cport := t.cport })) ∧
  (∀ (level : BitVec 4) (s : State), s.wbuf = [] → s.rbuf = [] →
    (awake s = true → portClock s = true → ∃ t, exec (.throttleChange level) s = .next t ∧ rd t pwrThrCtlHost = level.toNat ∧
      FieldsKept s t [pwrThrCtlHost] ∧
      t = { s with sts := t.sts, power := { s.power with thrEff := max s.power.thrEff (max level.toNat (rd s pwrThrCtlFloor)) } }) ∧
    (awake s = false ∨ portClock s = false → exec (.throttleChange level) s = .next s)) ∧
  ∀ (b : BitVec 9) (s : State), s.wbuf = [] → s.rbuf = [] → ∃ t, exec (.budgetChange b) s = .next t ∧
    rd t pwrBudgetHost = (if b.toNat = 0 then 0 else if b.toNat < 16 then 16 else if 256 < b.toNat then 256 else b.toNat) ∧
    FieldsKept s t [pwrBudgetHost] ∧ t = { s with sts := t.sts }

/-! ### Memory protection (15) -/

/-- SCRUB_ACCESS moves the scrubber on by one place and counts a pass of the Screed; a single-bit error it covers is corrected, counted in the
bucket of its class, and awaits its write-back, which CORRECTION_WRITE_BACK does. BUCKET_LEAK takes one from every bucket above 0.
KEEP_MAJORITY_REPAIR mends the oldest copy that disagrees and counts a class-11 error. MEMORY_ERROR damages a word of a class the engine has,
a second error in it making it a double one, and ARRAY_FAILURE marks an array as failed. Where errors fall is coded as log 44 says; an event without
its condition changes nothing (log 4). -/
def Obligations.ErrorsAreMetAndMended : Prop :=
  (∀ s : State, s.wbuf = [] → s.rbuf = [] →
    let p := s.ras.scrub
    let passes := fun (t : State) => rd t rasScrubStatPasses =
      if (p + 1) % 4096 = 0 then satAdd rasScrubStatPasses.width (rd s rasScrubStatPasses) 1 else rd s rasScrubStatPasses
    (portClock s = false ∨ rd s rasScrubCtlEnable ≠ 1 → exec .scrubAccess s = .next s) ∧
    (portClock s = true → rd s rasScrubCtlEnable = 1 → s.ras.damage = [] → ∃ t, exec .scrubAccess s = .next t ∧ passes t ∧
      FieldsKept s t (if (p + 1) % 4096 = 0 then [rasScrubStatPasses] else []) ∧ t = { s with
          sts := t.sts, ras := { s.ras with scrub := (p + 1) % 2 ^ 20 } }) ∧
    (∀ d, portClock s = true → rd s rasScrubCtlEnable = 1 → s.ras.damage = [d] → d.double = false → d.back = false →
      scrubChecks s d = true → scrubPlace d % scrubSpan d.cls = p % scrubSpan d.cls → ∃ t, exec .scrubAccess s = .next t ∧ passes t ∧
        t.ras.damage = [{ d with back := true }] ∧ t.ras.scrub = (p + 1) % 2 ^ 20 ∧ t.ras.lost = s.ras.lost ∧ t.ras.keepBad = s.ras.keepBad ∧
        (bucketOf t d.cls).ce = satAdd 32 (bucketOf s d.cls).ce 1 ∧ (∀ k, k ≠ d.cls → bucketOf t k = bucketOf s k) ∧
        t = { s with ras := t.ras, sts := t.sts, trace := t.trace, cport := t.cport, free := t.free })) ∧
  (∀ s : State, s.wbuf = [] → s.rbuf = [] →
    (s.ras.damage.find? (·.back) = none ∨ portClock s = false → exec .correctionWriteBack s = .next s) ∧
    (∀ d, s.ras.damage.find? (·.back) = some d → portClock s = true →
      ∃ t, exec .correctionWriteBack s = .next t ∧ t = { s with ras := { s.ras with damage := s.ras.damage.erase d } })) ∧
  (∀ s : State, s.wbuf = [] → s.rbuf = [] → (s.power.state = .off → exec .bucketLeak s = .next s) ∧
    (s.power.state ≠ .off → ∃ t, exec .bucketLeak s = .next t ∧
      (∀ k, bucketOf t k = { bucketOf s k with level := (bucketOf s k).level - 1 }) ∧ t = { s with
          ras := { s.ras with buckets := t.ras.buckets } })) ∧
  (∀ s : State, s.wbuf = [] → s.rbuf = [] → (s.ras.keepBad = [] → exec .keepMajorityRepair s = .next s) ∧
    (∀ k rest, s.ras.keepBad = k :: rest → ∃ t, exec .keepMajorityRepair s = .next t ∧
      (bucketOf t 11).ce = satAdd 32 (bucketOf s 11).ce 1 ∧ (∀ j, j ≠ 11 → bucketOf t j = bucketOf s j) ∧ StatusKept s t [0x00, 0x03, 0x04] ∧
      t = { s with
          sts := t.sts, trace := t.trace, cport := t.cport
          ras := { s.ras with keepBad := rest, buckets := t.ras.buckets, log := t.ras.log } })) ∧
  (∀ (e : ErrSite) (double : Bool) (s : State), s.wbuf = [] → s.rbuf = [] →
    (s.power.state = .off ∨ 12 ≤ e.cls.toNat ∨ unwritten s e = true → exec (.memoryError e double) s = .next s) ∧
    (s.power.state ≠ .off → e.cls.toNat = 11 → ∃ t, exec (.memoryError e double) s = .next t ∧
      t.ras.keepBad = s.ras.keepBad ++ [(e.unit.toNat, e.word.toNat)] ∧ t = { s with
          ras := { s.ras with keepBad := t.ras.keepBad } }) ∧
    (s.power.state ≠ .off → e.cls.toNat ≤ 10 → unwritten s e = false →
      let here := fun (d : Damage) => d.cls = e.cls.toNat ∧ d.unit = e.unit.toNat ∧ d.word = e.word.toNat
      ∃ t twice, exec (.memoryError e double) s = .next t ∧ (twice = true ↔ double = true ∨ ∃ d ∈ s.ras.damage, here d) ∧
        (∀ d, here d → (d ∈ t.ras.damage ↔ d = ⟨e.cls.toNat, e.unit.toNat, e.word.toNat, twice, false⟩)) ∧
        (∀ d, ¬ here d → (d ∈ t.ras.damage ↔ d ∈ s.ras.damage)) ∧ t = { s with ras := { s.ras with damage := t.ras.damage } })) ∧
  ∀ (a : BitVec 5) (s : State), s.wbuf = [] → s.rbuf = [] →
    (a.toNat < 24 → ∃ t, exec (.arrayFailure a) s = .next t ∧ (∀ n, n ∈ t.arrFail ↔ n = a.toNat ∨ n ∈ s.arrFail) ∧ t = { s with
        arrFail := t.arrFail }) ∧
    (24 ≤ a.toNat → exec (.arrayFailure a) s = .next s)

/-! ### M-port responses, inputs and resets (16) -/

/-- MPORT_RESPONSE with a tag that is not outstanding is discarded and sets PORT_PROTO. With OK, the bytes a command's unit asked for are those of the
response, for the unit and in memory (log 21); the acknowledge of a completion record retires its command: RETIRED advances and, where the
descriptor asks for it, CPL is set; that of a hand-off record advances HEAD and sets HOFF. With ERROR, the part of the command that read fails with
MPORT_ERROR, and MPORT_ERR counts it; a response for a command that is gone is discarded. In each case the request is outstanding no longer, and its
credit lets waiting requests of the port out. Without
the port clock nothing happens (log 4). -/
def Obligations.ResponsesEndRequests : Prop :=
  ∀ (port : BitVec 4) (tag : BitVec 10) (st : MStatus) (poison : BitVec 16) (data : List Byte) (s : State), s.wbuf = [] → s.rbuf = [] →
    let i := Instr.mportResponse port tag st poison data
    let hit := s.mreqs.find? (fun r => r.port == port.toNat && r.tag == tag.toNat)
    let answered := fun (t : State) (r : MReq) => s.mwait = [] → t.mreqs = s.mreqs.erase r ∧ t.mwait = []
    (awake s = false ∨ portClock s = false → exec i s = .next s) ∧
    (awake s = true → portClock s = true →
      (hit = none → ∃ t, exec i s = .next t ∧ bitOf (rd t (hdrEvt 0x00)) 11 = true ∧ FieldsKept s t (eventFields 0x00) ∧
        t = { s with sts := t.sts, trace := t.trace, cport := t.cport }) ∧
      (∀ r key core part c, hit = some r → r.why = .cmdRead key core part → st = .ok → findCmd s key = some c → isProduct c.desc = false →
        takesErr c = true →
        takesErr c = true →
        ∃ t, exec i s = .next t ∧ answered t r ∧
          (∀ x ∈ r.strobes, ∀ a, x.1 ≤ a → a < x.1 + x.2 → t.byte a = (data[a - r.addr]?).getD 0#8 ∧
            ((∀ e ∈ s.staged, e.key = key → e.core = core → e.part = part) → (readView t key core).byte a = (data[a - r.addr]?).getD 0#8)) ∧
          (∀ a, (∀ x ∈ r.strobes, a < x.1 ∨ x.1 + x.2 ≤ a) → t.byte a = s.byte a) ∧ t = { s with
              mem := t.mem, mreqs := t.mreqs, staged := t.staged, mwait := t.mwait }) ∧
      (∀ r key core part c, hit = some r → r.why = .cmdRead key core part → r.write = false → st = .error →
        findCmd s key = some c → c.phase = .started → c.pack = [] →
        (isProduct c.desc = false ∨ 7 ≤ core ∨ ∃ e ∈ s.staged, e.key = key ∧ e.core = core ∧ e.part = part) → ∃ t, exec i s = .next t ∧ answered t r ∧
          findCmd t key = some { c with errs := c.errs ++ [(core, stMportError)] } ∧ Others s t key ∧
          rd t trwMportErrCount = satAdd trwMportErrCount.width (rd s trwMportErrCount) 1 ∧ bitOf (rd t (hdrEvt 0x08)) 8 = true ∧
          (rd s trwMportErrCount = 0 → rd t trwErrAddrAddr = r.addr % 2 ^ 64) ∧
          StatusKept s t [0x04, 0x08] ∧ t = { s with
              cmds := t.cmds, sts := t.sts, trace := t.trace, cport := t.cport, mreqs := t.mreqs, mwait := t.mwait }) ∧
      (∀ r key core part, hit = some r → r.why = .cmdRead key core part → r.write = false → st = .ok ∨ st = .error → findCmd s key = none →
        ∃ t, exec i s = .next t ∧ answered t r ∧ t = { s with mreqs := t.mreqs, mwait := t.mwait }) ∧
      (∀ r key c, hit = some r → r.why = .completion key → key < firedKey → st = .ok → findCmd s key = some c → c.status = stOK →
        (queueOf s c.q).state = .running → ∃ t, exec i s = .next t ∧ answered t r ∧ t.cmds = s.cmds.filter (fun e => e.key != key) ∧
          rd t (queRetiredCount c.q) = (rd s (queRetiredCount c.q) + 1) % 2 ^ 32 ∧
          (dIrq c.desc = true → bitOf (rd t (hdrEvt (0x30 + c.q))) 8 = true) ∧
          FieldsKept s t (queRetiredCount c.q :: eventFields (0x30 + c.q)) ∧ t = { s with
              cmds := t.cmds, sts := t.sts, trace := t.trace, cport := t.cport, mreqs := t.mreqs, mwait := t.mwait }) ∧
      (∀ r key, hit = some r → r.why = .handoff key → st = .ok → ∃ t, exec i s = .next t ∧ answered t r ∧ t.handoffs = s.handoffs.drop 1 ∧
        rd t sivHringHeadIndex = (rd s sivHringHeadIndex + 1) % 2 ^ 32 ∧ bitOf (rd t (hdrEvt 0x0A)) 8 = true ∧
        StatusKept s t [0x04, 0x0A] ∧ t = { s with
            handoffs := t.handoffs, sts := t.sts, trace := t.trace, cport := t.cport, mreqs := t.mreqs, mwait := t.mwait }))

/-- TB_VALID_CHANGE and TB_STEP follow the T-port. RST_N gives every field its reset value but the two that follow inputs, and the block its reset
state, what is outside it and the inputs' levels kept; WRST_N does the same but for the error log, the RAS counters and ARR_FAIL, and says so
in RESET_STAT; the last of them to end samples the straps. POWER_LOSS leaves the block OFF. What lies outside the engine is kept as log 29 says. -/
def Obligations.InputsAndResetsAct : Prop :=
  (∀ (valid : Bool) (s : State), s.wbuf = [] → s.rbuf = [] → ∃ t, exec (.tbValidChange valid) s = .next t ∧ rd t glbTbStatValid = (if valid then 1 else 0) ∧
    (awake s = true → valid = false → bitOf (rd t (hdrEvt 0x00)) 13 = true) ∧ FieldsKept s t (glbTbStatValid :: eventFields 0x00) ∧
    t = { s with sts := t.sts, trace := t.trace, cport := t.cport, tb := { s.tb with valid := valid } }) ∧
  (∀ (time : BitVec 64) (s : State), s.wbuf = [] → s.rbuf = [] →
    (s.tb.valid = true ∧ time.toNat < s.tb.time → ∃ t, exec (.tbStep time) s = .next t ∧
      (awake s = true → rd t glbTbStatSteps = satAdd glbTbStatSteps.width (rd s glbTbStatSteps) 1 ∧ bitOf (rd t (hdrEvt 0x00)) 12 = true) ∧
      FieldsKept s t (glbTbStatSteps :: eventFields 0x00) ∧ t = { s with
          sts := t.sts, trace := t.trace, cport := t.cport, tb := { s.tb with time := time.toNat } }) ∧
    (s.tb.valid = false ∨ s.tb.time ≤ time.toNat → exec (.tbStep time) s = .next s)) ∧
  (∀ (p : Straps) (s : State), s.wbuf = [] → s.rbuf = [] →
    let cleared := fun (t : State) (kept : List Field) => ∀ f : Field, fieldKey f ∉ kept.map fieldKey → f.acc ≠ .view → f.acc ≠ .wo → rd t f = f.reset
    let lost := fun (t : State) => t = { State.reset with
      pending := s.pending, mem := s.mem, cfg := t.cfg, sts := t.sts, arrFail := s.arrFail, test := t.test, tb := ⟨s.tb.time, s.tb.valid, 0⟩
      power := { powerReset with ack := s.power.ack, state := t.power.state }, ras := t.ras, rstLow := t.rstLow, wrstLow := t.wrstLow
      quiet := t.quiet, free := s.free }
    let sampled := fun (t : State) => rd t glbStrapsChipNum = p.chipNum.toNat ∧ rd t glbStrapsFportPresent = p.fports.toNat ∧
      FieldsKept s t [glbStrapsChipNum, glbStrapsFportPresent]
    (s.rstLow = false → ∃ t, exec (.rstN true p) s = .next t ∧ lost t ∧ cleared t [glbTbStatValid, pwrBudgetHost] ∧ t.cfg = [] ∧
      t.ras = rasReset ∧ t.power.state = .keep ∧ t.rstLow = true ∧ t.wrstLow = s.wrstLow ∧ t.quiet = 0 ∧
      t.test = { s.test with disturbed := false }) ∧
    (s.rstLow = true → exec (.rstN true p) s = .next s) ∧
    (s.rstLow = true → s.wrstLow = false → s.test.disturbed = false → ∃ t, exec (.rstN false p) s = .next t ∧ sampled t ∧
      t = { s with sts := t.sts, rstLow := false }) ∧
    (s.rstLow = true → s.wrstLow = true → ∃ t, exec (.rstN false p) s = .next t ∧ t = { s with rstLow := false }) ∧
    (s.rstLow = false → exec (.rstN false p) s = .next s) ∧
    (s.power.state ≠ .off → s.rstLow = false → s.wrstLow = false → ∃ t, exec (.wrstN true p) s = .next t ∧ lost t ∧
      cleared t (wrstKept ++ [glbTbStatValid, pwrBudgetHost, glbResetStatCause, glbResetStatWrsts]) ∧
      (∀ f ∈ wrstKept, rd t f = rd s f % 2 ^ f.width) ∧ rd t glbResetStatCause = 1 ∧
      rd t glbResetStatWrsts = satAdd 16 (rd s glbResetStatWrsts) 1 ∧
      t.ras = { rasReset with log := s.ras.log, buckets := s.ras.buckets, banks := s.ras.banks } ∧ t.power.state = .keep ∧
      t.rstLow = false ∧ t.wrstLow = true ∧ t.quiet = (if s.txAwait.isEmpty then s.quiet else 4096) ∧ t.test = s.test) ∧
    (s.power.state ≠ .off → s.rstLow = true → s.wrstLow = false → ∃ t, exec (.wrstN true p) s = .next t ∧ t = { s with
        wrstLow := true }) ∧
    (s.power.state ≠ .off → s.rstLow = false → s.wrstLow = true → s.test.disturbed = false → ∃ t, exec (.wrstN false p) s = .next t ∧
      sampled t ∧ t = { s with sts := t.sts, wrstLow := false }) ∧
    (s.power.state = .off → ∀ low, exec (.wrstN low p) s = .next s) ∧
    ∃ t, exec .powerLoss s = .next t ∧ lost t ∧ cleared t [glbTbStatValid, pwrBudgetHost] ∧ t.ras = rasReset ∧ t.power.state = .off ∧
      t.rstLow = false ∧ t.wrstLow = false ∧ t.test = testReset)

/-! ### The test port (17) -/

/-- With power, WS_BYPASS, WS_PRELOAD and WS_IJTAG load their instruction and disturb nothing; EXTEST, INTEST, CLAMP and the scan instructions
disturb the engine exactly when RST_N is asserted; a 1687 controller starts only with RST_N asserted and the network selected, and ends
only while it runs; WRSTN resets the wrapper. Nothing but the wrapper changes; without power nothing does (log 4). The wrapper's reset values are log
19's. -/
def Obligations.TestPortActsOnTheWrapper : Prop :=
  ∀ s : State, s.wbuf = [] → s.rbuf = [] →
    (s.power.state = .off → ∀ i ∈ [Instr.wsBypass, .wsExtest, .wsIntest, .wsClamp, .wsScan, .wpScan, .wsIjtag, .wrstn], exec i s = .next s) ∧
    (s.power.state = .off → ∀ (v : List Bool) (u : BitVec 6) (kind : BitVec 2) (fail : Bool) (misr : Word) (count : BitVec 16) (first : BitVec 48),
      exec (.wsPreload v) s = .next s ∧ exec (.bistControllerStart u kind) s = .next s ∧
        exec (.bistControllerDone u fail misr count first) s = .next s) ∧
    (s.power.state ≠ .off →
      (∀ p ∈ [(Instr.wsBypass, Wir.bypass), (.wsIjtag, .ijtag)], ∃ t, exec p.1 s = .next t ∧ t = { s with
          test := { s.test with wir := p.2 } }) ∧
      (∀ v, ∃ t, exec (.wsPreload v) s = .next t ∧ t = { s with test := { s.test with wir := .preload, wbr := v } }) ∧
      (∀ p ∈ [(Instr.wsExtest, Wir.extest), (.wsIntest, .intest), (.wsClamp, .clamp), (.wsScan, .scan), (.wpScan, .wpScan)],
        ∃ t, exec p.1 s = .next t ∧ t = { s with test := { s.test with wir := p.2, disturbed := s.test.disturbed || s.rstLow } }) ∧
      (∀ (u : BitVec 6) (kind : BitVec 2), let may := s.rstLow = true ∧ s.test.wir = .ijtag ∧ unitTests u.toNat kind.toNat ≠ 0
        ∃ t, exec (.bistControllerStart u kind) s = .next t ∧ t = { s with
            test := t.test } ∧ t.test = { s.test with ctls := t.test.ctls } ∧
          (may → ctlOf t u.toNat = { ctlOf s u.toNat with run := true, kind := unitTests u.toNat kind.toNat, done := false, fail := false }) ∧
          (∀ b, b ≠ u.toNat ∨ ¬ may → ctlOf t b = ctlOf s b)) ∧
      (∀ (u : BitVec 6) (fail : Bool) (misr : Word) (count : BitVec 16) (first : BitVec 48),
        let may := s.rstLow = true ∧ (ctlOf s u.toNat).run = true
        let x := ctlOf s u.toNat
        ∃ t, exec (.bistControllerDone u fail misr count first) s = .next t ∧ t = { s with
            test := t.test } ∧ t.test = { s.test with ctls := t.test.ctls } ∧
          (may → ctlOf t u.toNat = { x with
            run := false, done := true, fail := fail, misr := if bitOf x.kind 0 then misr.toNat else x.misr
            count := if bitOf x.kind 1 then count.toNat else x.count, first := if bitOf x.kind 1 then first.toNat else x.first }) ∧
          (∀ b, b ≠ u.toNat ∨ ¬ may → ctlOf t b = ctlOf s b)) ∧
      ∃ t, exec .wrstn s = .next t ∧ t = { s with test := { testReset with disturbed := s.test.disturbed } })
end

