-- ==== Sys2Proof/Laws/State.lean ====
section
/-! SUPPORT. One lemma per field of State for each basic update: the fields it leaves as they were. -/

namespace Sys2Proof.Machine

/-! ### putByte -/

@[simp] theorem putByte_pending (s : State) (a : Nat) (b : Byte) : (s.putByte a b).pending = s.pending := rfl
@[simp] theorem putByte_mem (s : State) (a : Nat) (b : Byte) : (s.putByte a b).mem = s.mem := rfl
@[simp] theorem putByte_cfg (s : State) (a : Nat) (b : Byte) : (s.putByte a b).cfg = s.cfg := rfl
@[simp] theorem putByte_sts (s : State) (a : Nat) (b : Byte) : (s.putByte a b).sts = s.sts := rfl
@[simp] theorem putByte_queues (s : State) (a : Nat) (b : Byte) : (s.putByte a b).queues = s.queues := rfl
@[simp] theorem putByte_cmds (s : State) (a : Nat) (b : Byte) : (s.putByte a b).cmds = s.cmds := rfl
@[simp] theorem putByte_mreqs (s : State) (a : Nat) (b : Byte) : (s.putByte a b).mreqs = s.mreqs := rfl
@[simp] theorem putByte_rrobin (s : State) (a : Nat) (b : Byte) : (s.putByte a b).rrobin = s.rrobin := rfl
@[simp] theorem putByte_arrays (s : State) (a : Nat) (b : Byte) : (s.putByte a b).arrays = s.arrays := rfl
@[simp] theorem putByte_arrFail (s : State) (a : Nat) (b : Byte) : (s.putByte a b).arrFail = s.arrFail := rfl
@[simp] theorem putByte_hod (s : State) (a : Nat) (b : Byte) : (s.putByte a b).hod = s.hod := rfl
@[simp] theorem putByte_dyCache (s : State) (a : Nat) (b : Byte) : (s.putByte a b).dyCache = s.dyCache := rfl
@[simp] theorem putByte_loadw (s : State) (a : Nat) (b : Byte) : (s.putByte a b).loadw = s.loadw := rfl
@[simp] theorem putByte_images (s : State) (a : Nat) (b : Byte) : (s.putByte a b).images = s.images := rfl
@[simp] theorem putByte_lcache (s : State) (a : Nat) (b : Byte) : (s.putByte a b).lcache = s.lcache := rfl
@[simp] theorem putByte_lcacheAge (s : State) (a : Nat) (b : Byte) : (s.putByte a b).lcacheAge = s.lcacheAge := rfl
@[simp] theorem putByte_rbuf (s : State) (a : Nat) (b : Byte) : (s.putByte a b).rbuf = s.rbuf := rfl
@[simp] theorem putByte_mwait (s : State) (a : Nat) (b : Byte) : (s.putByte a b).mwait = s.mwait := rfl
@[simp] theorem putByte_staged (s : State) (a : Nat) (b : Byte) : (s.putByte a b).staged = s.staged := rfl
@[simp] theorem putByte_groups (s : State) (a : Nat) (b : Byte) : (s.putByte a b).groups = s.groups := rfl
@[simp] theorem putByte_tiles (s : State) (a : Nat) (b : Byte) : (s.putByte a b).tiles = s.tiles := rfl
@[simp] theorem putByte_frames (s : State) (a : Nat) (b : Byte) : (s.putByte a b).frames = s.frames := rfl
@[simp] theorem putByte_clock (s : State) (a : Nat) (b : Byte) : (s.putByte a b).clock = s.clock := rfl
@[simp] theorem putByte_preloads (s : State) (a : Nat) (b : Byte) : (s.putByte a b).preloads = s.preloads := rfl
@[simp] theorem putByte_diverts (s : State) (a : Nat) (b : Byte) : (s.putByte a b).diverts = s.diverts := rfl
@[simp] theorem putByte_folds (s : State) (a : Nat) (b : Byte) : (s.putByte a b).folds = s.folds := rfl
@[simp] theorem putByte_ledger (s : State) (a : Nat) (b : Byte) : (s.putByte a b).ledger = s.ledger := rfl
@[simp] theorem putByte_advisor (s : State) (a : Nat) (b : Byte) : (s.putByte a b).advisor = s.advisor := rfl
@[simp] theorem putByte_statsCom (s : State) (a : Nat) (b : Byte) : (s.putByte a b).statsCom = s.statsCom := rfl
@[simp] theorem putByte_statsSt (s : State) (a : Nat) (b : Byte) : (s.putByte a b).statsSt = s.statsSt := rfl
@[simp] theorem putByte_epoch (s : State) (a : Nat) (b : Byte) : (s.putByte a b).epoch = s.epoch := rfl
@[simp] theorem putByte_rxOpen (s : State) (a : Nat) (b : Byte) : (s.putByte a b).rxOpen = s.rxOpen := rfl
@[simp] theorem putByte_rxClosed (s : State) (a : Nat) (b : Byte) : (s.putByte a b).rxClosed = s.rxClosed := rfl
@[simp] theorem putByte_txq (s : State) (a : Nat) (b : Byte) : (s.putByte a b).txq = s.txq := rfl
@[simp] theorem putByte_txAwait (s : State) (a : Nat) (b : Byte) : (s.putByte a b).txAwait = s.txAwait := rfl
@[simp] theorem putByte_txState (s : State) (a : Nat) (b : Byte) : (s.putByte a b).txState = s.txState := rfl
@[simp] theorem putByte_frs (s : State) (a : Nat) (b : Byte) : (s.putByte a b).frs = s.frs := rfl
@[simp] theorem putByte_handoffs (s : State) (a : Nat) (b : Byte) : (s.putByte a b).handoffs = s.handoffs := rfl
@[simp] theorem putByte_snap (s : State) (a : Nat) (b : Byte) : (s.putByte a b).snap = s.snap := rfl
@[simp] theorem putByte_power (s : State) (a : Nat) (b : Byte) : (s.putByte a b).power = s.power := rfl
@[simp] theorem putByte_ras (s : State) (a : Nat) (b : Byte) : (s.putByte a b).ras = s.ras := rfl
@[simp] theorem putByte_tb (s : State) (a : Nat) (b : Byte) : (s.putByte a b).tb = s.tb := rfl
@[simp] theorem putByte_trace (s : State) (a : Nat) (b : Byte) : (s.putByte a b).trace = s.trace := rfl
@[simp] theorem putByte_cport (s : State) (a : Nat) (b : Byte) : (s.putByte a b).cport = s.cport := rfl
@[simp] theorem putByte_regData (s : State) (a : Nat) (b : Byte) : (s.putByte a b).regData = s.regData := rfl
@[simp] theorem putByte_regErr (s : State) (a : Nat) (b : Byte) : (s.putByte a b).regErr = s.regErr := rfl
@[simp] theorem putByte_bist (s : State) (a : Nat) (b : Byte) : (s.putByte a b).bist = s.bist := rfl
@[simp] theorem putByte_test (s : State) (a : Nat) (b : Byte) : (s.putByte a b).test = s.test := rfl
@[simp] theorem putByte_rstLow (s : State) (a : Nat) (b : Byte) : (s.putByte a b).rstLow = s.rstLow := rfl
@[simp] theorem putByte_wrstLow (s : State) (a : Nat) (b : Byte) : (s.putByte a b).wrstLow = s.wrstLow := rfl
@[simp] theorem putByte_quiet (s : State) (a : Nat) (b : Byte) : (s.putByte a b).quiet = s.quiet := rfl
@[simp] theorem putByte_free (s : State) (a : Nat) (b : Byte) : (s.putByte a b).free = s.free := rfl

/-! ### setArray -/

@[simp] theorem setArray_pending (s : State) (a : Nat) (x : ArraySt) : (setArray s a x).pending = s.pending := rfl
@[simp] theorem setArray_mem (s : State) (a : Nat) (x : ArraySt) : (setArray s a x).mem = s.mem := rfl
@[simp] theorem setArray_wbuf (s : State) (a : Nat) (x : ArraySt) : (setArray s a x).wbuf = s.wbuf := rfl
@[simp] theorem setArray_cfg (s : State) (a : Nat) (x : ArraySt) : (setArray s a x).cfg = s.cfg := rfl
@[simp] theorem setArray_sts (s : State) (a : Nat) (x : ArraySt) : (setArray s a x).sts = s.sts := rfl
@[simp] theorem setArray_queues (s : State) (a : Nat) (x : ArraySt) : (setArray s a x).queues = s.queues := rfl
@[simp] theorem setArray_cmds (s : State) (a : Nat) (x : ArraySt) : (setArray s a x).cmds = s.cmds := rfl
@[simp] theorem setArray_mreqs (s : State) (a : Nat) (x : ArraySt) : (setArray s a x).mreqs = s.mreqs := rfl
@[simp] theorem setArray_rrobin (s : State) (a : Nat) (x : ArraySt) : (setArray s a x).rrobin = s.rrobin := rfl
@[simp] theorem setArray_arrFail (s : State) (a : Nat) (x : ArraySt) : (setArray s a x).arrFail = s.arrFail := rfl
@[simp] theorem setArray_hod (s : State) (a : Nat) (x : ArraySt) : (setArray s a x).hod = s.hod := rfl
@[simp] theorem setArray_dyCache (s : State) (a : Nat) (x : ArraySt) : (setArray s a x).dyCache = s.dyCache := rfl
@[simp] theorem setArray_loadw (s : State) (a : Nat) (x : ArraySt) : (setArray s a x).loadw = s.loadw := rfl
@[simp] theorem setArray_images (s : State) (a : Nat) (x : ArraySt) : (setArray s a x).images = s.images := rfl
@[simp] theorem setArray_lcache (s : State) (a : Nat) (x : ArraySt) : (setArray s a x).lcache = s.lcache := rfl
@[simp] theorem setArray_lcacheAge (s : State) (a : Nat) (x : ArraySt) : (setArray s a x).lcacheAge = s.lcacheAge := rfl
@[simp] theorem setArray_rbuf (s : State) (a : Nat) (x : ArraySt) : (setArray s a x).rbuf = s.rbuf := rfl
@[simp] theorem setArray_mwait (s : State) (a : Nat) (x : ArraySt) : (setArray s a x).mwait = s.mwait := rfl
@[simp] theorem setArray_staged (s : State) (a : Nat) (x : ArraySt) : (setArray s a x).staged = s.staged := rfl
@[simp] theorem setArray_groups (s : State) (a : Nat) (x : ArraySt) : (setArray s a x).groups = s.groups := rfl
@[simp] theorem setArray_tiles (s : State) (a : Nat) (x : ArraySt) : (setArray s a x).tiles = s.tiles := rfl
@[simp] theorem setArray_frames (s : State) (a : Nat) (x : ArraySt) : (setArray s a x).frames = s.frames := rfl
@[simp] theorem setArray_clock (s : State) (a : Nat) (x : ArraySt) : (setArray s a x).clock = s.clock := rfl
@[simp] theorem setArray_preloads (s : State) (a : Nat) (x : ArraySt) : (setArray s a x).preloads = s.preloads := rfl
@[simp] theorem setArray_diverts (s : State) (a : Nat) (x : ArraySt) : (setArray s a x).diverts = s.diverts := rfl
@[simp] theorem setArray_folds (s : State) (a : Nat) (x : ArraySt) : (setArray s a x).folds = s.folds := rfl
@[simp] theorem setArray_ledger (s : State) (a : Nat) (x : ArraySt) : (setArray s a x).ledger = s.ledger := rfl
@[simp] theorem setArray_advisor (s : State) (a : Nat) (x : ArraySt) : (setArray s a x).advisor = s.advisor := rfl
@[simp] theorem setArray_statsCom (s : State) (a : Nat) (x : ArraySt) : (setArray s a x).statsCom = s.statsCom := rfl
@[simp] theorem setArray_statsSt (s : State) (a : Nat) (x : ArraySt) : (setArray s a x).statsSt = s.statsSt := rfl
@[simp] theorem setArray_epoch (s : State) (a : Nat) (x : ArraySt) : (setArray s a x).epoch = s.epoch := rfl
@[simp] theorem setArray_rxOpen (s : State) (a : Nat) (x : ArraySt) : (setArray s a x).rxOpen = s.rxOpen := rfl
@[simp] theorem setArray_rxClosed (s : State) (a : Nat) (x : ArraySt) : (setArray s a x).rxClosed = s.rxClosed := rfl
@[simp] theorem setArray_txq (s : State) (a : Nat) (x : ArraySt) : (setArray s a x).txq = s.txq := rfl
@[simp] theorem setArray_txAwait (s : State) (a : Nat) (x : ArraySt) : (setArray s a x).txAwait = s.txAwait := rfl
@[simp] theorem setArray_txState (s : State) (a : Nat) (x : ArraySt) : (setArray s a x).txState = s.txState := rfl
@[simp] theorem setArray_frs (s : State) (a : Nat) (x : ArraySt) : (setArray s a x).frs = s.frs := rfl
@[simp] theorem setArray_handoffs (s : State) (a : Nat) (x : ArraySt) : (setArray s a x).handoffs = s.handoffs := rfl
@[simp] theorem setArray_snap (s : State) (a : Nat) (x : ArraySt) : (setArray s a x).snap = s.snap := rfl
@[simp] theorem setArray_power (s : State) (a : Nat) (x : ArraySt) : (setArray s a x).power = s.power := rfl
@[simp] theorem setArray_ras (s : State) (a : Nat) (x : ArraySt) : (setArray s a x).ras = s.ras := rfl
@[simp] theorem setArray_tb (s : State) (a : Nat) (x : ArraySt) : (setArray s a x).tb = s.tb := rfl
@[simp] theorem setArray_trace (s : State) (a : Nat) (x : ArraySt) : (setArray s a x).trace = s.trace := rfl
@[simp] theorem setArray_cport (s : State) (a : Nat) (x : ArraySt) : (setArray s a x).cport = s.cport := rfl
@[simp] theorem setArray_regData (s : State) (a : Nat) (x : ArraySt) : (setArray s a x).regData = s.regData := rfl
@[simp] theorem setArray_regErr (s : State) (a : Nat) (x : ArraySt) : (setArray s a x).regErr = s.regErr := rfl
@[simp] theorem setArray_bist (s : State) (a : Nat) (x : ArraySt) : (setArray s a x).bist = s.bist := rfl
@[simp] theorem setArray_test (s : State) (a : Nat) (x : ArraySt) : (setArray s a x).test = s.test := rfl
@[simp] theorem setArray_rstLow (s : State) (a : Nat) (x : ArraySt) : (setArray s a x).rstLow = s.rstLow := rfl
@[simp] theorem setArray_wrstLow (s : State) (a : Nat) (x : ArraySt) : (setArray s a x).wrstLow = s.wrstLow := rfl
@[simp] theorem setArray_quiet (s : State) (a : Nat) (x : ArraySt) : (setArray s a x).quiet = s.quiet := rfl
@[simp] theorem setArray_free (s : State) (a : Nat) (x : ArraySt) : (setArray s a x).free = s.free := rfl

/-! ### setGroup -/

@[simp] theorem setGroup_pending (s : State) (g : Nat) (x : Group) : (setGroup s g x).pending = s.pending := rfl
@[simp] theorem setGroup_mem (s : State) (g : Nat) (x : Group) : (setGroup s g x).mem = s.mem := rfl
@[simp] theorem setGroup_wbuf (s : State) (g : Nat) (x : Group) : (setGroup s g x).wbuf = s.wbuf := rfl
@[simp] theorem setGroup_cfg (s : State) (g : Nat) (x : Group) : (setGroup s g x).cfg = s.cfg := rfl
@[simp] theorem setGroup_sts (s : State) (g : Nat) (x : Group) : (setGroup s g x).sts = s.sts := rfl
@[simp] theorem setGroup_queues (s : State) (g : Nat) (x : Group) : (setGroup s g x).queues = s.queues := rfl
@[simp] theorem setGroup_cmds (s : State) (g : Nat) (x : Group) : (setGroup s g x).cmds = s.cmds := rfl
@[simp] theorem setGroup_mreqs (s : State) (g : Nat) (x : Group) : (setGroup s g x).mreqs = s.mreqs := rfl
@[simp] theorem setGroup_rrobin (s : State) (g : Nat) (x : Group) : (setGroup s g x).rrobin = s.rrobin := rfl
@[simp] theorem setGroup_arrays (s : State) (g : Nat) (x : Group) : (setGroup s g x).arrays = s.arrays := rfl
@[simp] theorem setGroup_arrFail (s : State) (g : Nat) (x : Group) : (setGroup s g x).arrFail = s.arrFail := rfl
@[simp] theorem setGroup_hod (s : State) (g : Nat) (x : Group) : (setGroup s g x).hod = s.hod := rfl
@[simp] theorem setGroup_dyCache (s : State) (g : Nat) (x : Group) : (setGroup s g x).dyCache = s.dyCache := rfl
@[simp] theorem setGroup_loadw (s : State) (g : Nat) (x : Group) : (setGroup s g x).loadw = s.loadw := rfl
@[simp] theorem setGroup_images (s : State) (g : Nat) (x : Group) : (setGroup s g x).images = s.images := rfl
@[simp] theorem setGroup_lcache (s : State) (g : Nat) (x : Group) : (setGroup s g x).lcache = s.lcache := rfl
@[simp] theorem setGroup_lcacheAge (s : State) (g : Nat) (x : Group) : (setGroup s g x).lcacheAge = s.lcacheAge := rfl
@[simp] theorem setGroup_rbuf (s : State) (g : Nat) (x : Group) : (setGroup s g x).rbuf = s.rbuf := rfl
@[simp] theorem setGroup_mwait (s : State) (g : Nat) (x : Group) : (setGroup s g x).mwait = s.mwait := rfl
@[simp] theorem setGroup_staged (s : State) (g : Nat) (x : Group) : (setGroup s g x).staged = s.staged := rfl
@[simp] theorem setGroup_tiles (s : State) (g : Nat) (x : Group) : (setGroup s g x).tiles = s.tiles := rfl
@[simp] theorem setGroup_frames (s : State) (g : Nat) (x : Group) : (setGroup s g x).frames = s.frames := rfl
@[simp] theorem setGroup_clock (s : State) (g : Nat) (x : Group) : (setGroup s g x).clock = s.clock := rfl
@[simp] theorem setGroup_preloads (s : State) (g : Nat) (x : Group) : (setGroup s g x).preloads = s.preloads := rfl
@[simp] theorem setGroup_diverts (s : State) (g : Nat) (x : Group) : (setGroup s g x).diverts = s.diverts := rfl
@[simp] theorem setGroup_folds (s : State) (g : Nat) (x : Group) : (setGroup s g x).folds = s.folds := rfl
@[simp] theorem setGroup_ledger (s : State) (g : Nat) (x : Group) : (setGroup s g x).ledger = s.ledger := rfl
@[simp] theorem setGroup_advisor (s : State) (g : Nat) (x : Group) : (setGroup s g x).advisor = s.advisor := rfl
@[simp] theorem setGroup_statsCom (s : State) (g : Nat) (x : Group) : (setGroup s g x).statsCom = s.statsCom := rfl
@[simp] theorem setGroup_statsSt (s : State) (g : Nat) (x : Group) : (setGroup s g x).statsSt = s.statsSt := rfl
@[simp] theorem setGroup_epoch (s : State) (g : Nat) (x : Group) : (setGroup s g x).epoch = s.epoch := rfl
@[simp] theorem setGroup_rxOpen (s : State) (g : Nat) (x : Group) : (setGroup s g x).rxOpen = s.rxOpen := rfl
@[simp] theorem setGroup_rxClosed (s : State) (g : Nat) (x : Group) : (setGroup s g x).rxClosed = s.rxClosed := rfl
@[simp] theorem setGroup_txq (s : State) (g : Nat) (x : Group) : (setGroup s g x).txq = s.txq := rfl
@[simp] theorem setGroup_txAwait (s : State) (g : Nat) (x : Group) : (setGroup s g x).txAwait = s.txAwait := rfl
@[simp] theorem setGroup_txState (s : State) (g : Nat) (x : Group) : (setGroup s g x).txState = s.txState := rfl
@[simp] theorem setGroup_frs (s : State) (g : Nat) (x : Group) : (setGroup s g x).frs = s.frs := rfl
@[simp] theorem setGroup_handoffs (s : State) (g : Nat) (x : Group) : (setGroup s g x).handoffs = s.handoffs := rfl
@[simp] theorem setGroup_snap (s : State) (g : Nat) (x : Group) : (setGroup s g x).snap = s.snap := rfl
@[simp] theorem setGroup_power (s : State) (g : Nat) (x : Group) : (setGroup s g x).power = s.power := rfl
@[simp] theorem setGroup_ras (s : State) (g : Nat) (x : Group) : (setGroup s g x).ras = s.ras := rfl
@[simp] theorem setGroup_tb (s : State) (g : Nat) (x : Group) : (setGroup s g x).tb = s.tb := rfl
@[simp] theorem setGroup_trace (s : State) (g : Nat) (x : Group) : (setGroup s g x).trace = s.trace := rfl
@[simp] theorem setGroup_cport (s : State) (g : Nat) (x : Group) : (setGroup s g x).cport = s.cport := rfl
@[simp] theorem setGroup_regData (s : State) (g : Nat) (x : Group) : (setGroup s g x).regData = s.regData := rfl
@[simp] theorem setGroup_regErr (s : State) (g : Nat) (x : Group) : (setGroup s g x).regErr = s.regErr := rfl
@[simp] theorem setGroup_bist (s : State) (g : Nat) (x : Group) : (setGroup s g x).bist = s.bist := rfl
@[simp] theorem setGroup_test (s : State) (g : Nat) (x : Group) : (setGroup s g x).test = s.test := rfl
@[simp] theorem setGroup_rstLow (s : State) (g : Nat) (x : Group) : (setGroup s g x).rstLow = s.rstLow := rfl
@[simp] theorem setGroup_wrstLow (s : State) (g : Nat) (x : Group) : (setGroup s g x).wrstLow = s.wrstLow := rfl
@[simp] theorem setGroup_quiet (s : State) (g : Nat) (x : Group) : (setGroup s g x).quiet = s.quiet := rfl
@[simp] theorem setGroup_free (s : State) (g : Nat) (x : Group) : (setGroup s g x).free = s.free := rfl

/-! ### setTile -/

@[simp] theorem setTile_pending (s : State) (g t : Nat) (x : TileDir) : (setTile s g t x).pending = s.pending := rfl
@[simp] theorem setTile_mem (s : State) (g t : Nat) (x : TileDir) : (setTile s g t x).mem = s.mem := rfl
@[simp] theorem setTile_wbuf (s : State) (g t : Nat) (x : TileDir) : (setTile s g t x).wbuf = s.wbuf := rfl
@[simp] theorem setTile_cfg (s : State) (g t : Nat) (x : TileDir) : (setTile s g t x).cfg = s.cfg := rfl
@[simp] theorem setTile_sts (s : State) (g t : Nat) (x : TileDir) : (setTile s g t x).sts = s.sts := rfl
@[simp] theorem setTile_queues (s : State) (g t : Nat) (x : TileDir) : (setTile s g t x).queues = s.queues := rfl
@[simp] theorem setTile_cmds (s : State) (g t : Nat) (x : TileDir) : (setTile s g t x).cmds = s.cmds := rfl
@[simp] theorem setTile_mreqs (s : State) (g t : Nat) (x : TileDir) : (setTile s g t x).mreqs = s.mreqs := rfl
@[simp] theorem setTile_rrobin (s : State) (g t : Nat) (x : TileDir) : (setTile s g t x).rrobin = s.rrobin := rfl
@[simp] theorem setTile_arrays (s : State) (g t : Nat) (x : TileDir) : (setTile s g t x).arrays = s.arrays := rfl
@[simp] theorem setTile_arrFail (s : State) (g t : Nat) (x : TileDir) : (setTile s g t x).arrFail = s.arrFail := rfl
@[simp] theorem setTile_hod (s : State) (g t : Nat) (x : TileDir) : (setTile s g t x).hod = s.hod := rfl
@[simp] theorem setTile_dyCache (s : State) (g t : Nat) (x : TileDir) : (setTile s g t x).dyCache = s.dyCache := rfl
@[simp] theorem setTile_loadw (s : State) (g t : Nat) (x : TileDir) : (setTile s g t x).loadw = s.loadw := rfl
@[simp] theorem setTile_images (s : State) (g t : Nat) (x : TileDir) : (setTile s g t x).images = s.images := rfl
@[simp] theorem setTile_lcache (s : State) (g t : Nat) (x : TileDir) : (setTile s g t x).lcache = s.lcache := rfl
@[simp] theorem setTile_lcacheAge (s : State) (g t : Nat) (x : TileDir) : (setTile s g t x).lcacheAge = s.lcacheAge := rfl
@[simp] theorem setTile_rbuf (s : State) (g t : Nat) (x : TileDir) : (setTile s g t x).rbuf = s.rbuf := rfl
@[simp] theorem setTile_mwait (s : State) (g t : Nat) (x : TileDir) : (setTile s g t x).mwait = s.mwait := rfl
@[simp] theorem setTile_staged (s : State) (g t : Nat) (x : TileDir) : (setTile s g t x).staged = s.staged := rfl
@[simp] theorem setTile_groups (s : State) (g t : Nat) (x : TileDir) : (setTile s g t x).groups = s.groups := rfl
@[simp] theorem setTile_frames (s : State) (g t : Nat) (x : TileDir) : (setTile s g t x).frames = s.frames := rfl
@[simp] theorem setTile_clock (s : State) (g t : Nat) (x : TileDir) : (setTile s g t x).clock = s.clock := rfl
@[simp] theorem setTile_preloads (s : State) (g t : Nat) (x : TileDir) : (setTile s g t x).preloads = s.preloads := rfl
@[simp] theorem setTile_diverts (s : State) (g t : Nat) (x : TileDir) : (setTile s g t x).diverts = s.diverts := rfl
@[simp] theorem setTile_folds (s : State) (g t : Nat) (x : TileDir) : (setTile s g t x).folds = s.folds := rfl
@[simp] theorem setTile_ledger (s : State) (g t : Nat) (x : TileDir) : (setTile s g t x).ledger = s.ledger := rfl
@[simp] theorem setTile_advisor (s : State) (g t : Nat) (x : TileDir) : (setTile s g t x).advisor = s.advisor := rfl
@[simp] theorem setTile_statsCom (s : State) (g t : Nat) (x : TileDir) : (setTile s g t x).statsCom = s.statsCom := rfl
@[simp] theorem setTile_statsSt (s : State) (g t : Nat) (x : TileDir) : (setTile s g t x).statsSt = s.statsSt := rfl
@[simp] theorem setTile_epoch (s : State) (g t : Nat) (x : TileDir) : (setTile s g t x).epoch = s.epoch := rfl
@[simp] theorem setTile_rxOpen (s : State) (g t : Nat) (x : TileDir) : (setTile s g t x).rxOpen = s.rxOpen := rfl
@[simp] theorem setTile_rxClosed (s : State) (g t : Nat) (x : TileDir) : (setTile s g t x).rxClosed = s.rxClosed := rfl
@[simp] theorem setTile_txq (s : State) (g t : Nat) (x : TileDir) : (setTile s g t x).txq = s.txq := rfl
@[simp] theorem setTile_txAwait (s : State) (g t : Nat) (x : TileDir) : (setTile s g t x).txAwait = s.txAwait := rfl
@[simp] theorem setTile_txState (s : State) (g t : Nat) (x : TileDir) : (setTile s g t x).txState = s.txState := rfl
@[simp] theorem setTile_frs (s : State) (g t : Nat) (x : TileDir) : (setTile s g t x).frs = s.frs := rfl
@[simp] theorem setTile_handoffs (s : State) (g t : Nat) (x : TileDir) : (setTile s g t x).handoffs = s.handoffs := rfl
@[simp] theorem setTile_snap (s : State) (g t : Nat) (x : TileDir) : (setTile s g t x).snap = s.snap := rfl
@[simp] theorem setTile_power (s : State) (g t : Nat) (x : TileDir) : (setTile s g t x).power = s.power := rfl
@[simp] theorem setTile_ras (s : State) (g t : Nat) (x : TileDir) : (setTile s g t x).ras = s.ras := rfl
@[simp] theorem setTile_tb (s : State) (g t : Nat) (x : TileDir) : (setTile s g t x).tb = s.tb := rfl
@[simp] theorem setTile_trace (s : State) (g t : Nat) (x : TileDir) : (setTile s g t x).trace = s.trace := rfl
@[simp] theorem setTile_cport (s : State) (g t : Nat) (x : TileDir) : (setTile s g t x).cport = s.cport := rfl
@[simp] theorem setTile_regData (s : State) (g t : Nat) (x : TileDir) : (setTile s g t x).regData = s.regData := rfl
@[simp] theorem setTile_regErr (s : State) (g t : Nat) (x : TileDir) : (setTile s g t x).regErr = s.regErr := rfl
@[simp] theorem setTile_bist (s : State) (g t : Nat) (x : TileDir) : (setTile s g t x).bist = s.bist := rfl
@[simp] theorem setTile_test (s : State) (g t : Nat) (x : TileDir) : (setTile s g t x).test = s.test := rfl
@[simp] theorem setTile_rstLow (s : State) (g t : Nat) (x : TileDir) : (setTile s g t x).rstLow = s.rstLow := rfl
@[simp] theorem setTile_wrstLow (s : State) (g t : Nat) (x : TileDir) : (setTile s g t x).wrstLow = s.wrstLow := rfl
@[simp] theorem setTile_quiet (s : State) (g t : Nat) (x : TileDir) : (setTile s g t x).quiet = s.quiet := rfl
@[simp] theorem setTile_free (s : State) (g t : Nat) (x : TileDir) : (setTile s g t x).free = s.free := rfl

/-! ### setQueue -/

@[simp] theorem setQueue_pending (s : State) (q : Nat) (x : Queue) : (setQueue s q x).pending = s.pending := rfl
@[simp] theorem setQueue_mem (s : State) (q : Nat) (x : Queue) : (setQueue s q x).mem = s.mem := rfl
@[simp] theorem setQueue_wbuf (s : State) (q : Nat) (x : Queue) : (setQueue s q x).wbuf = s.wbuf := rfl
@[simp] theorem setQueue_cfg (s : State) (q : Nat) (x : Queue) : (setQueue s q x).cfg = s.cfg := rfl
@[simp] theorem setQueue_sts (s : State) (q : Nat) (x : Queue) : (setQueue s q x).sts = s.sts := rfl
@[simp] theorem setQueue_cmds (s : State) (q : Nat) (x : Queue) : (setQueue s q x).cmds = s.cmds := rfl
@[simp] theorem setQueue_mreqs (s : State) (q : Nat) (x : Queue) : (setQueue s q x).mreqs = s.mreqs := rfl
@[simp] theorem setQueue_rrobin (s : State) (q : Nat) (x : Queue) : (setQueue s q x).rrobin = s.rrobin := rfl
@[simp] theorem setQueue_arrays (s : State) (q : Nat) (x : Queue) : (setQueue s q x).arrays = s.arrays := rfl
@[simp] theorem setQueue_arrFail (s : State) (q : Nat) (x : Queue) : (setQueue s q x).arrFail = s.arrFail := rfl
@[simp] theorem setQueue_hod (s : State) (q : Nat) (x : Queue) : (setQueue s q x).hod = s.hod := rfl
@[simp] theorem setQueue_dyCache (s : State) (q : Nat) (x : Queue) : (setQueue s q x).dyCache = s.dyCache := rfl
@[simp] theorem setQueue_loadw (s : State) (q : Nat) (x : Queue) : (setQueue s q x).loadw = s.loadw := rfl
@[simp] theorem setQueue_images (s : State) (q : Nat) (x : Queue) : (setQueue s q x).images = s.images := rfl
@[simp] theorem setQueue_lcache (s : State) (q : Nat) (x : Queue) : (setQueue s q x).lcache = s.lcache := rfl
@[simp] theorem setQueue_lcacheAge (s : State) (q : Nat) (x : Queue) : (setQueue s q x).lcacheAge = s.lcacheAge := rfl
@[simp] theorem setQueue_rbuf (s : State) (q : Nat) (x : Queue) : (setQueue s q x).rbuf = s.rbuf := rfl
@[simp] theorem setQueue_mwait (s : State) (q : Nat) (x : Queue) : (setQueue s q x).mwait = s.mwait := rfl
@[simp] theorem setQueue_staged (s : State) (q : Nat) (x : Queue) : (setQueue s q x).staged = s.staged := rfl
@[simp] theorem setQueue_groups (s : State) (q : Nat) (x : Queue) : (setQueue s q x).groups = s.groups := rfl
@[simp] theorem setQueue_tiles (s : State) (q : Nat) (x : Queue) : (setQueue s q x).tiles = s.tiles := rfl
@[simp] theorem setQueue_frames (s : State) (q : Nat) (x : Queue) : (setQueue s q x).frames = s.frames := rfl
@[simp] theorem setQueue_clock (s : State) (q : Nat) (x : Queue) : (setQueue s q x).clock = s.clock := rfl
@[simp] theorem setQueue_preloads (s : State) (q : Nat) (x : Queue) : (setQueue s q x).preloads = s.preloads := rfl
@[simp] theorem setQueue_diverts (s : State) (q : Nat) (x : Queue) : (setQueue s q x).diverts = s.diverts := rfl
@[simp] theorem setQueue_folds (s : State) (q : Nat) (x : Queue) : (setQueue s q x).folds = s.folds := rfl
@[simp] theorem setQueue_ledger (s : State) (q : Nat) (x : Queue) : (setQueue s q x).ledger = s.ledger := rfl
@[simp] theorem setQueue_advisor (s : State) (q : Nat) (x : Queue) : (setQueue s q x).advisor = s.advisor := rfl
@[simp] theorem setQueue_statsCom (s : State) (q : Nat) (x : Queue) : (setQueue s q x).statsCom = s.statsCom := rfl
@[simp] theorem setQueue_statsSt (s : State) (q : Nat) (x : Queue) : (setQueue s q x).statsSt = s.statsSt := rfl
@[simp] theorem setQueue_epoch (s : State) (q : Nat) (x : Queue) : (setQueue s q x).epoch = s.epoch := rfl
@[simp] theorem setQueue_rxOpen (s : State) (q : Nat) (x : Queue) : (setQueue s q x).rxOpen = s.rxOpen := rfl
@[simp] theorem setQueue_rxClosed (s : State) (q : Nat) (x : Queue) : (setQueue s q x).rxClosed = s.rxClosed := rfl
@[simp] theorem setQueue_txq (s : State) (q : Nat) (x : Queue) : (setQueue s q x).txq = s.txq := rfl
@[simp] theorem setQueue_txAwait (s : State) (q : Nat) (x : Queue) : (setQueue s q x).txAwait = s.txAwait := rfl
@[simp] theorem setQueue_txState (s : State) (q : Nat) (x : Queue) : (setQueue s q x).txState = s.txState := rfl
@[simp] theorem setQueue_frs (s : State) (q : Nat) (x : Queue) : (setQueue s q x).frs = s.frs := rfl
@[simp] theorem setQueue_handoffs (s : State) (q : Nat) (x : Queue) : (setQueue s q x).handoffs = s.handoffs := rfl
@[simp] theorem setQueue_snap (s : State) (q : Nat) (x : Queue) : (setQueue s q x).snap = s.snap := rfl
@[simp] theorem setQueue_power (s : State) (q : Nat) (x : Queue) : (setQueue s q x).power = s.power := rfl
@[simp] theorem setQueue_ras (s : State) (q : Nat) (x : Queue) : (setQueue s q x).ras = s.ras := rfl
@[simp] theorem setQueue_tb (s : State) (q : Nat) (x : Queue) : (setQueue s q x).tb = s.tb := rfl
@[simp] theorem setQueue_trace (s : State) (q : Nat) (x : Queue) : (setQueue s q x).trace = s.trace := rfl
@[simp] theorem setQueue_cport (s : State) (q : Nat) (x : Queue) : (setQueue s q x).cport = s.cport := rfl
@[simp] theorem setQueue_regData (s : State) (q : Nat) (x : Queue) : (setQueue s q x).regData = s.regData := rfl
@[simp] theorem setQueue_regErr (s : State) (q : Nat) (x : Queue) : (setQueue s q x).regErr = s.regErr := rfl
@[simp] theorem setQueue_bist (s : State) (q : Nat) (x : Queue) : (setQueue s q x).bist = s.bist := rfl
@[simp] theorem setQueue_test (s : State) (q : Nat) (x : Queue) : (setQueue s q x).test = s.test := rfl
@[simp] theorem setQueue_rstLow (s : State) (q : Nat) (x : Queue) : (setQueue s q x).rstLow = s.rstLow := rfl
@[simp] theorem setQueue_wrstLow (s : State) (q : Nat) (x : Queue) : (setQueue s q x).wrstLow = s.wrstLow := rfl
@[simp] theorem setQueue_quiet (s : State) (q : Nat) (x : Queue) : (setQueue s q x).quiet = s.quiet := rfl
@[simp] theorem setQueue_free (s : State) (q : Nat) (x : Queue) : (setQueue s q x).free = s.free := rfl

/-! ### modCmd -/

@[simp] theorem modCmd_pending (s : State) (k : Nat) (f : Cmd → Cmd) : (modCmd s k f).pending = s.pending := rfl
@[simp] theorem modCmd_mem (s : State) (k : Nat) (f : Cmd → Cmd) : (modCmd s k f).mem = s.mem := rfl
@[simp] theorem modCmd_wbuf (s : State) (k : Nat) (f : Cmd → Cmd) : (modCmd s k f).wbuf = s.wbuf := rfl
@[simp] theorem modCmd_cfg (s : State) (k : Nat) (f : Cmd → Cmd) : (modCmd s k f).cfg = s.cfg := rfl
@[simp] theorem modCmd_sts (s : State) (k : Nat) (f : Cmd → Cmd) : (modCmd s k f).sts = s.sts := rfl
@[simp] theorem modCmd_queues (s : State) (k : Nat) (f : Cmd → Cmd) : (modCmd s k f).queues = s.queues := rfl
@[simp] theorem modCmd_mreqs (s : State) (k : Nat) (f : Cmd → Cmd) : (modCmd s k f).mreqs = s.mreqs := rfl
@[simp] theorem modCmd_rrobin (s : State) (k : Nat) (f : Cmd → Cmd) : (modCmd s k f).rrobin = s.rrobin := rfl
@[simp] theorem modCmd_arrays (s : State) (k : Nat) (f : Cmd → Cmd) : (modCmd s k f).arrays = s.arrays := rfl
@[simp] theorem modCmd_arrFail (s : State) (k : Nat) (f : Cmd → Cmd) : (modCmd s k f).arrFail = s.arrFail := rfl
@[simp] theorem modCmd_hod (s : State) (k : Nat) (f : Cmd → Cmd) : (modCmd s k f).hod = s.hod := rfl
@[simp] theorem modCmd_dyCache (s : State) (k : Nat) (f : Cmd → Cmd) : (modCmd s k f).dyCache = s.dyCache := rfl
@[simp] theorem modCmd_loadw (s : State) (k : Nat) (f : Cmd → Cmd) : (modCmd s k f).loadw = s.loadw := rfl
@[simp] theorem modCmd_images (s : State) (k : Nat) (f : Cmd → Cmd) : (modCmd s k f).images = s.images := rfl
@[simp] theorem modCmd_lcache (s : State) (k : Nat) (f : Cmd → Cmd) : (modCmd s k f).lcache = s.lcache := rfl
@[simp] theorem modCmd_lcacheAge (s : State) (k : Nat) (f : Cmd → Cmd) : (modCmd s k f).lcacheAge = s.lcacheAge := rfl
@[simp] theorem modCmd_rbuf (s : State) (k : Nat) (f : Cmd → Cmd) : (modCmd s k f).rbuf = s.rbuf := rfl
@[simp] theorem modCmd_mwait (s : State) (k : Nat) (f : Cmd → Cmd) : (modCmd s k f).mwait = s.mwait := rfl
@[simp] theorem modCmd_staged (s : State) (k : Nat) (f : Cmd → Cmd) : (modCmd s k f).staged = s.staged := rfl
@[simp] theorem modCmd_groups (s : State) (k : Nat) (f : Cmd → Cmd) : (modCmd s k f).groups = s.groups := rfl
@[simp] theorem modCmd_tiles (s : State) (k : Nat) (f : Cmd → Cmd) : (modCmd s k f).tiles = s.tiles := rfl
@[simp] theorem modCmd_frames (s : State) (k : Nat) (f : Cmd → Cmd) : (modCmd s k f).frames = s.frames := rfl
@[simp] theorem modCmd_clock (s : State) (k : Nat) (f : Cmd → Cmd) : (modCmd s k f).clock = s.clock := rfl
@[simp] theorem modCmd_preloads (s : State) (k : Nat) (f : Cmd → Cmd) : (modCmd s k f).preloads = s.preloads := rfl
@[simp] theorem modCmd_diverts (s : State) (k : Nat) (f : Cmd → Cmd) : (modCmd s k f).diverts = s.diverts := rfl
@[simp] theorem modCmd_folds (s : State) (k : Nat) (f : Cmd → Cmd) : (modCmd s k f).folds = s.folds := rfl
@[simp] theorem modCmd_ledger (s : State) (k : Nat) (f : Cmd → Cmd) : (modCmd s k f).ledger = s.ledger := rfl
@[simp] theorem modCmd_advisor (s : State) (k : Nat) (f : Cmd → Cmd) : (modCmd s k f).advisor = s.advisor := rfl
@[simp] theorem modCmd_statsCom (s : State) (k : Nat) (f : Cmd → Cmd) : (modCmd s k f).statsCom = s.statsCom := rfl
@[simp] theorem modCmd_statsSt (s : State) (k : Nat) (f : Cmd → Cmd) : (modCmd s k f).statsSt = s.statsSt := rfl
@[simp] theorem modCmd_epoch (s : State) (k : Nat) (f : Cmd → Cmd) : (modCmd s k f).epoch = s.epoch := rfl
@[simp] theorem modCmd_rxOpen (s : State) (k : Nat) (f : Cmd → Cmd) : (modCmd s k f).rxOpen = s.rxOpen := rfl
@[simp] theorem modCmd_rxClosed (s : State) (k : Nat) (f : Cmd → Cmd) : (modCmd s k f).rxClosed = s.rxClosed := rfl
@[simp] theorem modCmd_txq (s : State) (k : Nat) (f : Cmd → Cmd) : (modCmd s k f).txq = s.txq := rfl
@[simp] theorem modCmd_txAwait (s : State) (k : Nat) (f : Cmd → Cmd) : (modCmd s k f).txAwait = s.txAwait := rfl
@[simp] theorem modCmd_txState (s : State) (k : Nat) (f : Cmd → Cmd) : (modCmd s k f).txState = s.txState := rfl
@[simp] theorem modCmd_frs (s : State) (k : Nat) (f : Cmd → Cmd) : (modCmd s k f).frs = s.frs := rfl
@[simp] theorem modCmd_handoffs (s : State) (k : Nat) (f : Cmd → Cmd) : (modCmd s k f).handoffs = s.handoffs := rfl
@[simp] theorem modCmd_snap (s : State) (k : Nat) (f : Cmd → Cmd) : (modCmd s k f).snap = s.snap := rfl
@[simp] theorem modCmd_power (s : State) (k : Nat) (f : Cmd → Cmd) : (modCmd s k f).power = s.power := rfl
@[simp] theorem modCmd_ras (s : State) (k : Nat) (f : Cmd → Cmd) : (modCmd s k f).ras = s.ras := rfl
@[simp] theorem modCmd_tb (s : State) (k : Nat) (f : Cmd → Cmd) : (modCmd s k f).tb = s.tb := rfl
@[simp] theorem modCmd_trace (s : State) (k : Nat) (f : Cmd → Cmd) : (modCmd s k f).trace = s.trace := rfl
@[simp] theorem modCmd_cport (s : State) (k : Nat) (f : Cmd → Cmd) : (modCmd s k f).cport = s.cport := rfl
@[simp] theorem modCmd_regData (s : State) (k : Nat) (f : Cmd → Cmd) : (modCmd s k f).regData = s.regData := rfl
@[simp] theorem modCmd_regErr (s : State) (k : Nat) (f : Cmd → Cmd) : (modCmd s k f).regErr = s.regErr := rfl
@[simp] theorem modCmd_bist (s : State) (k : Nat) (f : Cmd → Cmd) : (modCmd s k f).bist = s.bist := rfl
@[simp] theorem modCmd_test (s : State) (k : Nat) (f : Cmd → Cmd) : (modCmd s k f).test = s.test := rfl
@[simp] theorem modCmd_rstLow (s : State) (k : Nat) (f : Cmd → Cmd) : (modCmd s k f).rstLow = s.rstLow := rfl
@[simp] theorem modCmd_wrstLow (s : State) (k : Nat) (f : Cmd → Cmd) : (modCmd s k f).wrstLow = s.wrstLow := rfl
@[simp] theorem modCmd_quiet (s : State) (k : Nat) (f : Cmd → Cmd) : (modCmd s k f).quiet = s.quiet := rfl
@[simp] theorem modCmd_free (s : State) (k : Nat) (f : Cmd → Cmd) : (modCmd s k f).free = s.free := rfl

/-! ### endCmd -/

@[simp] theorem endCmd_pending (s : State) (k a b c : Nat) : (endCmd s k a b c).pending = s.pending := rfl
@[simp] theorem endCmd_mem (s : State) (k a b c : Nat) : (endCmd s k a b c).mem = s.mem := rfl
@[simp] theorem endCmd_wbuf (s : State) (k a b c : Nat) : (endCmd s k a b c).wbuf = s.wbuf := rfl
@[simp] theorem endCmd_cfg (s : State) (k a b c : Nat) : (endCmd s k a b c).cfg = s.cfg := rfl
@[simp] theorem endCmd_sts (s : State) (k a b c : Nat) : (endCmd s k a b c).sts = s.sts := rfl
@[simp] theorem endCmd_queues (s : State) (k a b c : Nat) : (endCmd s k a b c).queues = s.queues := rfl
@[simp] theorem endCmd_mreqs (s : State) (k a b c : Nat) : (endCmd s k a b c).mreqs = s.mreqs := rfl
@[simp] theorem endCmd_rrobin (s : State) (k a b c : Nat) : (endCmd s k a b c).rrobin = s.rrobin := rfl
@[simp] theorem endCmd_arrays (s : State) (k a b c : Nat) : (endCmd s k a b c).arrays = s.arrays := rfl
@[simp] theorem endCmd_arrFail (s : State) (k a b c : Nat) : (endCmd s k a b c).arrFail = s.arrFail := rfl
@[simp] theorem endCmd_hod (s : State) (k a b c : Nat) : (endCmd s k a b c).hod = s.hod := rfl
@[simp] theorem endCmd_dyCache (s : State) (k a b c : Nat) : (endCmd s k a b c).dyCache = s.dyCache := rfl
@[simp] theorem endCmd_loadw (s : State) (k a b c : Nat) : (endCmd s k a b c).loadw = s.loadw := rfl
@[simp] theorem endCmd_images (s : State) (k a b c : Nat) : (endCmd s k a b c).images = s.images := rfl
@[simp] theorem endCmd_lcache (s : State) (k a b c : Nat) : (endCmd s k a b c).lcache = s.lcache := rfl
@[simp] theorem endCmd_lcacheAge (s : State) (k a b c : Nat) : (endCmd s k a b c).lcacheAge = s.lcacheAge := rfl
@[simp] theorem endCmd_rbuf (s : State) (k a b c : Nat) : (endCmd s k a b c).rbuf = s.rbuf := rfl
@[simp] theorem endCmd_mwait (s : State) (k a b c : Nat) : (endCmd s k a b c).mwait = s.mwait := rfl
@[simp] theorem endCmd_staged (s : State) (k a b c : Nat) : (endCmd s k a b c).staged = s.staged := rfl
@[simp] theorem endCmd_groups (s : State) (k a b c : Nat) : (endCmd s k a b c).groups = s.groups := rfl
@[simp] theorem endCmd_tiles (s : State) (k a b c : Nat) : (endCmd s k a b c).tiles = s.tiles := rfl
@[simp] theorem endCmd_frames (s : State) (k a b c : Nat) : (endCmd s k a b c).frames = s.frames := rfl
@[simp] theorem endCmd_clock (s : State) (k a b c : Nat) : (endCmd s k a b c).clock = s.clock := rfl
@[simp] theorem endCmd_preloads (s : State) (k a b c : Nat) : (endCmd s k a b c).preloads = s.preloads := rfl
@[simp] theorem endCmd_diverts (s : State) (k a b c : Nat) : (endCmd s k a b c).diverts = s.diverts := rfl
@[simp] theorem endCmd_folds (s : State) (k a b c : Nat) : (endCmd s k a b c).folds = s.folds := rfl
@[simp] theorem endCmd_ledger (s : State) (k a b c : Nat) : (endCmd s k a b c).ledger = s.ledger := rfl
@[simp] theorem endCmd_advisor (s : State) (k a b c : Nat) : (endCmd s k a b c).advisor = s.advisor := rfl
@[simp] theorem endCmd_statsCom (s : State) (k a b c : Nat) : (endCmd s k a b c).statsCom = s.statsCom := rfl
@[simp] theorem endCmd_statsSt (s : State) (k a b c : Nat) : (endCmd s k a b c).statsSt = s.statsSt := rfl
@[simp] theorem endCmd_epoch (s : State) (k a b c : Nat) : (endCmd s k a b c).epoch = s.epoch := rfl
@[simp] theorem endCmd_rxOpen (s : State) (k a b c : Nat) : (endCmd s k a b c).rxOpen = s.rxOpen := rfl
@[simp] theorem endCmd_rxClosed (s : State) (k a b c : Nat) : (endCmd s k a b c).rxClosed = s.rxClosed := rfl
@[simp] theorem endCmd_txq (s : State) (k a b c : Nat) : (endCmd s k a b c).txq = s.txq := rfl
@[simp] theorem endCmd_txAwait (s : State) (k a b c : Nat) : (endCmd s k a b c).txAwait = s.txAwait := rfl
@[simp] theorem endCmd_txState (s : State) (k a b c : Nat) : (endCmd s k a b c).txState = s.txState := rfl
@[simp] theorem endCmd_frs (s : State) (k a b c : Nat) : (endCmd s k a b c).frs = s.frs := rfl
@[simp] theorem endCmd_handoffs (s : State) (k a b c : Nat) : (endCmd s k a b c).handoffs = s.handoffs := rfl
@[simp] theorem endCmd_snap (s : State) (k a b c : Nat) : (endCmd s k a b c).snap = s.snap := rfl
@[simp] theorem endCmd_power (s : State) (k a b c : Nat) : (endCmd s k a b c).power = s.power := rfl
@[simp] theorem endCmd_ras (s : State) (k a b c : Nat) : (endCmd s k a b c).ras = s.ras := rfl
@[simp] theorem endCmd_tb (s : State) (k a b c : Nat) : (endCmd s k a b c).tb = s.tb := rfl
@[simp] theorem endCmd_trace (s : State) (k a b c : Nat) : (endCmd s k a b c).trace = s.trace := rfl
@[simp] theorem endCmd_cport (s : State) (k a b c : Nat) : (endCmd s k a b c).cport = s.cport := rfl
@[simp] theorem endCmd_regData (s : State) (k a b c : Nat) : (endCmd s k a b c).regData = s.regData := rfl
@[simp] theorem endCmd_regErr (s : State) (k a b c : Nat) : (endCmd s k a b c).regErr = s.regErr := rfl
@[simp] theorem endCmd_bist (s : State) (k a b c : Nat) : (endCmd s k a b c).bist = s.bist := rfl
@[simp] theorem endCmd_test (s : State) (k a b c : Nat) : (endCmd s k a b c).test = s.test := rfl
@[simp] theorem endCmd_rstLow (s : State) (k a b c : Nat) : (endCmd s k a b c).rstLow = s.rstLow := rfl
@[simp] theorem endCmd_wrstLow (s : State) (k a b c : Nat) : (endCmd s k a b c).wrstLow = s.wrstLow := rfl
@[simp] theorem endCmd_quiet (s : State) (k a b c : Nat) : (endCmd s k a b c).quiet = s.quiet := rfl
@[simp] theorem endCmd_free (s : State) (k a b c : Nat) : (endCmd s k a b c).free = s.free := rfl

/-! ### issueStrobed -/

@[simp] theorem issueStrobed_pending (s : State) (a b : Bool) (c d : Nat) (e : List (Nat × Nat)) (f : MPurpose) : (issueStrobed s a b c d e f).pending = s.pending := rfl
@[simp] theorem issueStrobed_mem (s : State) (a b : Bool) (c d : Nat) (e : List (Nat × Nat)) (f : MPurpose) : (issueStrobed s a b c d e f).mem = s.mem := rfl
@[simp] theorem issueStrobed_wbuf (s : State) (a b : Bool) (c d : Nat) (e : List (Nat × Nat)) (f : MPurpose) : (issueStrobed s a b c d e f).wbuf = s.wbuf := rfl
@[simp] theorem issueStrobed_cfg (s : State) (a b : Bool) (c d : Nat) (e : List (Nat × Nat)) (f : MPurpose) : (issueStrobed s a b c d e f).cfg = s.cfg := rfl
@[simp] theorem issueStrobed_sts (s : State) (a b : Bool) (c d : Nat) (e : List (Nat × Nat)) (f : MPurpose) : (issueStrobed s a b c d e f).sts = s.sts := rfl
@[simp] theorem issueStrobed_queues (s : State) (a b : Bool) (c d : Nat) (e : List (Nat × Nat)) (f : MPurpose) : (issueStrobed s a b c d e f).queues = s.queues := rfl
@[simp] theorem issueStrobed_cmds (s : State) (a b : Bool) (c d : Nat) (e : List (Nat × Nat)) (f : MPurpose) : (issueStrobed s a b c d e f).cmds = s.cmds := rfl
@[simp] theorem issueStrobed_rrobin (s : State) (a b : Bool) (c d : Nat) (e : List (Nat × Nat)) (f : MPurpose) : (issueStrobed s a b c d e f).rrobin = s.rrobin := rfl
@[simp] theorem issueStrobed_arrays (s : State) (a b : Bool) (c d : Nat) (e : List (Nat × Nat)) (f : MPurpose) : (issueStrobed s a b c d e f).arrays = s.arrays := rfl
@[simp] theorem issueStrobed_arrFail (s : State) (a b : Bool) (c d : Nat) (e : List (Nat × Nat)) (f : MPurpose) : (issueStrobed s a b c d e f).arrFail = s.arrFail := rfl
@[simp] theorem issueStrobed_hod (s : State) (a b : Bool) (c d : Nat) (e : List (Nat × Nat)) (f : MPurpose) : (issueStrobed s a b c d e f).hod = s.hod := rfl
@[simp] theorem issueStrobed_dyCache (s : State) (a b : Bool) (c d : Nat) (e : List (Nat × Nat)) (f : MPurpose) : (issueStrobed s a b c d e f).dyCache = s.dyCache := rfl
@[simp] theorem issueStrobed_loadw (s : State) (a b : Bool) (c d : Nat) (e : List (Nat × Nat)) (f : MPurpose) : (issueStrobed s a b c d e f).loadw = s.loadw := rfl
@[simp] theorem issueStrobed_images (s : State) (a b : Bool) (c d : Nat) (e : List (Nat × Nat)) (f : MPurpose) : (issueStrobed s a b c d e f).images = s.images := rfl
@[simp] theorem issueStrobed_lcache (s : State) (a b : Bool) (c d : Nat) (e : List (Nat × Nat)) (f : MPurpose) : (issueStrobed s a b c d e f).lcache = s.lcache := rfl
@[simp] theorem issueStrobed_lcacheAge (s : State) (a b : Bool) (c d : Nat) (e : List (Nat × Nat)) (f : MPurpose) : (issueStrobed s a b c d e f).lcacheAge = s.lcacheAge := rfl
@[simp] theorem issueStrobed_rbuf (s : State) (a b : Bool) (c d : Nat) (e : List (Nat × Nat)) (f : MPurpose) : (issueStrobed s a b c d e f).rbuf = s.rbuf := rfl
@[simp] theorem issueStrobed_mwait (s : State) (a b : Bool) (c d : Nat) (e : List (Nat × Nat)) (f : MPurpose) : (issueStrobed s a b c d e f).mwait = s.mwait := rfl
@[simp] theorem issueStrobed_staged (s : State) (a b : Bool) (c d : Nat) (e : List (Nat × Nat)) (f : MPurpose) : (issueStrobed s a b c d e f).staged = s.staged := rfl
@[simp] theorem issueStrobed_groups (s : State) (a b : Bool) (c d : Nat) (e : List (Nat × Nat)) (f : MPurpose) : (issueStrobed s a b c d e f).groups = s.groups := rfl
@[simp] theorem issueStrobed_tiles (s : State) (a b : Bool) (c d : Nat) (e : List (Nat × Nat)) (f : MPurpose) : (issueStrobed s a b c d e f).tiles = s.tiles := rfl
@[simp] theorem issueStrobed_frames (s : State) (a b : Bool) (c d : Nat) (e : List (Nat × Nat)) (f : MPurpose) : (issueStrobed s a b c d e f).frames = s.frames := rfl
@[simp] theorem issueStrobed_clock (s : State) (a b : Bool) (c d : Nat) (e : List (Nat × Nat)) (f : MPurpose) : (issueStrobed s a b c d e f).clock = s.clock := rfl
@[simp] theorem issueStrobed_preloads (s : State) (a b : Bool) (c d : Nat) (e : List (Nat × Nat)) (f : MPurpose) : (issueStrobed s a b c d e f).preloads = s.preloads := rfl
@[simp] theorem issueStrobed_diverts (s : State) (a b : Bool) (c d : Nat) (e : List (Nat × Nat)) (f : MPurpose) : (issueStrobed s a b c d e f).diverts = s.diverts := rfl
@[simp] theorem issueStrobed_folds (s : State) (a b : Bool) (c d : Nat) (e : List (Nat × Nat)) (f : MPurpose) : (issueStrobed s a b c d e f).folds = s.folds := rfl
@[simp] theorem issueStrobed_ledger (s : State) (a b : Bool) (c d : Nat) (e : List (Nat × Nat)) (f : MPurpose) : (issueStrobed s a b c d e f).ledger = s.ledger := rfl
@[simp] theorem issueStrobed_advisor (s : State) (a b : Bool) (c d : Nat) (e : List (Nat × Nat)) (f : MPurpose) : (issueStrobed s a b c d e f).advisor = s.advisor := rfl
@[simp] theorem issueStrobed_statsCom (s : State) (a b : Bool) (c d : Nat) (e : List (Nat × Nat)) (f : MPurpose) : (issueStrobed s a b c d e f).statsCom = s.statsCom := rfl
@[simp] theorem issueStrobed_statsSt (s : State) (a b : Bool) (c d : Nat) (e : List (Nat × Nat)) (f : MPurpose) : (issueStrobed s a b c d e f).statsSt = s.statsSt := rfl
@[simp] theorem issueStrobed_epoch (s : State) (a b : Bool) (c d : Nat) (e : List (Nat × Nat)) (f : MPurpose) : (issueStrobed s a b c d e f).epoch = s.epoch := rfl
@[simp] theorem issueStrobed_rxOpen (s : State) (a b : Bool) (c d : Nat) (e : List (Nat × Nat)) (f : MPurpose) : (issueStrobed s a b c d e f).rxOpen = s.rxOpen := rfl
@[simp] theorem issueStrobed_rxClosed (s : State) (a b : Bool) (c d : Nat) (e : List (Nat × Nat)) (f : MPurpose) : (issueStrobed s a b c d e f).rxClosed = s.rxClosed := rfl
@[simp] theorem issueStrobed_txq (s : State) (a b : Bool) (c d : Nat) (e : List (Nat × Nat)) (f : MPurpose) : (issueStrobed s a b c d e f).txq = s.txq := rfl
@[simp] theorem issueStrobed_txAwait (s : State) (a b : Bool) (c d : Nat) (e : List (Nat × Nat)) (f : MPurpose) : (issueStrobed s a b c d e f).txAwait = s.txAwait := rfl
@[simp] theorem issueStrobed_txState (s : State) (a b : Bool) (c d : Nat) (e : List (Nat × Nat)) (f : MPurpose) : (issueStrobed s a b c d e f).txState = s.txState := rfl
@[simp] theorem issueStrobed_frs (s : State) (a b : Bool) (c d : Nat) (e : List (Nat × Nat)) (f : MPurpose) : (issueStrobed s a b c d e f).frs = s.frs := rfl
@[simp] theorem issueStrobed_handoffs (s : State) (a b : Bool) (c d : Nat) (e : List (Nat × Nat)) (f : MPurpose) : (issueStrobed s a b c d e f).handoffs = s.handoffs := rfl
@[simp] theorem issueStrobed_snap (s : State) (a b : Bool) (c d : Nat) (e : List (Nat × Nat)) (f : MPurpose) : (issueStrobed s a b c d e f).snap = s.snap := rfl
@[simp] theorem issueStrobed_power (s : State) (a b : Bool) (c d : Nat) (e : List (Nat × Nat)) (f : MPurpose) : (issueStrobed s a b c d e f).power = s.power := rfl
@[simp] theorem issueStrobed_ras (s : State) (a b : Bool) (c d : Nat) (e : List (Nat × Nat)) (f : MPurpose) : (issueStrobed s a b c d e f).ras = s.ras := rfl
@[simp] theorem issueStrobed_tb (s : State) (a b : Bool) (c d : Nat) (e : List (Nat × Nat)) (f : MPurpose) : (issueStrobed s a b c d e f).tb = s.tb := rfl
@[simp] theorem issueStrobed_trace (s : State) (a b : Bool) (c d : Nat) (e : List (Nat × Nat)) (f : MPurpose) : (issueStrobed s a b c d e f).trace = s.trace := rfl
@[simp] theorem issueStrobed_cport (s : State) (a b : Bool) (c d : Nat) (e : List (Nat × Nat)) (f : MPurpose) : (issueStrobed s a b c d e f).cport = s.cport := rfl
@[simp] theorem issueStrobed_regData (s : State) (a b : Bool) (c d : Nat) (e : List (Nat × Nat)) (f : MPurpose) : (issueStrobed s a b c d e f).regData = s.regData := rfl
@[simp] theorem issueStrobed_regErr (s : State) (a b : Bool) (c d : Nat) (e : List (Nat × Nat)) (f : MPurpose) : (issueStrobed s a b c d e f).regErr = s.regErr := rfl
@[simp] theorem issueStrobed_bist (s : State) (a b : Bool) (c d : Nat) (e : List (Nat × Nat)) (f : MPurpose) : (issueStrobed s a b c d e f).bist = s.bist := rfl
@[simp] theorem issueStrobed_test (s : State) (a b : Bool) (c d : Nat) (e : List (Nat × Nat)) (f : MPurpose) : (issueStrobed s a b c d e f).test = s.test := rfl
@[simp] theorem issueStrobed_rstLow (s : State) (a b : Bool) (c d : Nat) (e : List (Nat × Nat)) (f : MPurpose) : (issueStrobed s a b c d e f).rstLow = s.rstLow := rfl
@[simp] theorem issueStrobed_wrstLow (s : State) (a b : Bool) (c d : Nat) (e : List (Nat × Nat)) (f : MPurpose) : (issueStrobed s a b c d e f).wrstLow = s.wrstLow := rfl
@[simp] theorem issueStrobed_quiet (s : State) (a b : Bool) (c d : Nat) (e : List (Nat × Nat)) (f : MPurpose) : (issueStrobed s a b c d e f).quiet = s.quiet := rfl
@[simp] theorem issueStrobed_free (s : State) (a b : Bool) (c d : Nat) (e : List (Nat × Nat)) (f : MPurpose) : (issueStrobed s a b c d e f).free = s.free := rfl

/-! ### The view of a unit -/

@[simp] theorem readView_rbuf (s : State) (k c : Nat) :
    (readView s k c).rbuf = (s.staged.filter (fun e => e.key == k && e.core == c)).flatMap (·.cells) := rfl
@[simp] theorem readView_pending (s : State) (k c : Nat) : (readView s k c).pending = s.pending := rfl
@[simp] theorem readView_mem (s : State) (k c : Nat) : (readView s k c).mem = s.mem := rfl
@[simp] theorem readView_wbuf (s : State) (k c : Nat) : (readView s k c).wbuf = s.wbuf := rfl
@[simp] theorem readView_cfg (s : State) (k c : Nat) : (readView s k c).cfg = s.cfg := rfl
@[simp] theorem readView_sts (s : State) (k c : Nat) : (readView s k c).sts = s.sts := rfl
@[simp] theorem readView_queues (s : State) (k c : Nat) : (readView s k c).queues = s.queues := rfl
@[simp] theorem readView_cmds (s : State) (k c : Nat) : (readView s k c).cmds = s.cmds := rfl
@[simp] theorem readView_mreqs (s : State) (k c : Nat) : (readView s k c).mreqs = s.mreqs := rfl
@[simp] theorem readView_mwait (s : State) (k c : Nat) : (readView s k c).mwait = s.mwait := rfl
@[simp] theorem readView_staged (s : State) (k c : Nat) : (readView s k c).staged = s.staged := rfl
@[simp] theorem readView_rrobin (s : State) (k c : Nat) : (readView s k c).rrobin = s.rrobin := rfl
@[simp] theorem readView_arrays (s : State) (k c : Nat) : (readView s k c).arrays = s.arrays := rfl
@[simp] theorem readView_arrFail (s : State) (k c : Nat) : (readView s k c).arrFail = s.arrFail := rfl
@[simp] theorem readView_hod (s : State) (k c : Nat) : (readView s k c).hod = s.hod := rfl
@[simp] theorem readView_dyCache (s : State) (k c : Nat) : (readView s k c).dyCache = s.dyCache := rfl
@[simp] theorem readView_loadw (s : State) (k c : Nat) : (readView s k c).loadw = s.loadw := rfl
@[simp] theorem readView_images (s : State) (k c : Nat) : (readView s k c).images = s.images := rfl
@[simp] theorem readView_lcache (s : State) (k c : Nat) : (readView s k c).lcache = s.lcache := rfl
@[simp] theorem readView_lcacheAge (s : State) (k c : Nat) : (readView s k c).lcacheAge = s.lcacheAge := rfl
@[simp] theorem readView_groups (s : State) (k c : Nat) : (readView s k c).groups = s.groups := rfl
@[simp] theorem readView_tiles (s : State) (k c : Nat) : (readView s k c).tiles = s.tiles := rfl
@[simp] theorem readView_frames (s : State) (k c : Nat) : (readView s k c).frames = s.frames := rfl
@[simp] theorem readView_clock (s : State) (k c : Nat) : (readView s k c).clock = s.clock := rfl
@[simp] theorem readView_preloads (s : State) (k c : Nat) : (readView s k c).preloads = s.preloads := rfl
@[simp] theorem readView_diverts (s : State) (k c : Nat) : (readView s k c).diverts = s.diverts := rfl
@[simp] theorem readView_folds (s : State) (k c : Nat) : (readView s k c).folds = s.folds := rfl
@[simp] theorem readView_ledger (s : State) (k c : Nat) : (readView s k c).ledger = s.ledger := rfl
@[simp] theorem readView_advisor (s : State) (k c : Nat) : (readView s k c).advisor = s.advisor := rfl
@[simp] theorem readView_statsCom (s : State) (k c : Nat) : (readView s k c).statsCom = s.statsCom := rfl
@[simp] theorem readView_statsSt (s : State) (k c : Nat) : (readView s k c).statsSt = s.statsSt := rfl
@[simp] theorem readView_epoch (s : State) (k c : Nat) : (readView s k c).epoch = s.epoch := rfl
@[simp] theorem readView_rxOpen (s : State) (k c : Nat) : (readView s k c).rxOpen = s.rxOpen := rfl
@[simp] theorem readView_rxClosed (s : State) (k c : Nat) : (readView s k c).rxClosed = s.rxClosed := rfl
@[simp] theorem readView_txq (s : State) (k c : Nat) : (readView s k c).txq = s.txq := rfl
@[simp] theorem readView_txAwait (s : State) (k c : Nat) : (readView s k c).txAwait = s.txAwait := rfl
@[simp] theorem readView_txState (s : State) (k c : Nat) : (readView s k c).txState = s.txState := rfl
@[simp] theorem readView_frs (s : State) (k c : Nat) : (readView s k c).frs = s.frs := rfl
@[simp] theorem readView_handoffs (s : State) (k c : Nat) : (readView s k c).handoffs = s.handoffs := rfl
@[simp] theorem readView_snap (s : State) (k c : Nat) : (readView s k c).snap = s.snap := rfl
@[simp] theorem readView_power (s : State) (k c : Nat) : (readView s k c).power = s.power := rfl
@[simp] theorem readView_ras (s : State) (k c : Nat) : (readView s k c).ras = s.ras := rfl
@[simp] theorem readView_tb (s : State) (k c : Nat) : (readView s k c).tb = s.tb := rfl
@[simp] theorem readView_trace (s : State) (k c : Nat) : (readView s k c).trace = s.trace := rfl
@[simp] theorem readView_cport (s : State) (k c : Nat) : (readView s k c).cport = s.cport := rfl
@[simp] theorem readView_regData (s : State) (k c : Nat) : (readView s k c).regData = s.regData := rfl
@[simp] theorem readView_regErr (s : State) (k c : Nat) : (readView s k c).regErr = s.regErr := rfl
@[simp] theorem readView_bist (s : State) (k c : Nat) : (readView s k c).bist = s.bist := rfl
@[simp] theorem readView_test (s : State) (k c : Nat) : (readView s k c).test = s.test := rfl
@[simp] theorem readView_rstLow (s : State) (k c : Nat) : (readView s k c).rstLow = s.rstLow := rfl
@[simp] theorem readView_wrstLow (s : State) (k c : Nat) : (readView s k c).wrstLow = s.wrstLow := rfl
@[simp] theorem readView_quiet (s : State) (k c : Nat) : (readView s k c).quiet = s.quiet := rfl
@[simp] theorem readView_free (s : State) (k c : Nat) : (readView s k c).free = s.free := rfl

end Sys2Proof.Machine
end

