-- ==== Sys2Proof/Laws/Frame.lean ====
section
/-! SUPPORT. Everything a basic operation can change, said once: the state after it is the state before with the named fields
replaced. -/

namespace Sys2Proof.Machine

/-- A write of a register field changes `cfg` and `sts` only. -/
theorem wr_only (s : State) (f : Field) (v : Nat) :
    wr s f v = { s with cfg := (wr s f v).cfg, sts := (wr s f v).sts } := by
  unfold wr; split <;> rfl

/-- A write of a field the engine sets leaves what software writes. -/
theorem wr_cfg_ro (s : State) (f : Field) (v : Nat) (h : f.acc = .ro ∨ f.acc = .w1c) : (wr s f v).cfg = s.cfg := by
  unfold wr; rcases h with h | h <;> rw [h]

/-- A write of a field that software writes leaves what the engine sets. -/
theorem wr_sts_rw (s : State) (f : Field) (v : Nat) (h : f.acc = .rw ∨ f.acc = .rwOnce) : (wr s f v).sts = s.sts := by
  unfold wr; rcases h with h | h <;> rw [h]

theorem bump_only (s : State) (f : Field) (n : Nat) :
    bump s f n = { s with cfg := (bump s f n).cfg, sts := (bump s f n).sts } := wr_only ..

/-- A change of `sts` and `trace` only. -/
def StsTrace (s t : State) : Prop := t = { s with sts := t.sts, trace := t.trace }

theorem StsTrace.refl (s : State) : StsTrace s s := rfl

theorem StsTrace.trans {s t u : State} (h : StsTrace s t) (k : StsTrace t u) : StsTrace s u := by
  unfold StsTrace at *; rw [k, h]

theorem StsTrace.wr (s : State) (f : Field) (v : Nat) (h : f.acc = .ro ∨ f.acc = .w1c) : StsTrace s (wr s f v) := by
  unfold StsTrace Machine.wr; rcases h with h | h <;> rw [h]

theorem StsTrace.bump (s : State) (f : Field) (n : Nat) (h : f.acc = .ro ∨ f.acc = .w1c) : StsTrace s (bump s f n) :=
  StsTrace.wr s f _ h

theorem traceDrop_acc {s : State} {f : Field} (h : traceDrop s = some f) : f.acc = .ro := by
  unfold traceDrop at h
  split at h
  · cases h; rfl
  · split at h
    · cases h; rfl
    · split at h
      · cases h; rfl
      · cases h

theorem StsTrace.tracePut (s : State) (r : List Byte) : StsTrace s (tracePut s r) := by
  unfold Machine.tracePut
  split
  · next h => exact StsTrace.bump s _ 1 (.inl (traceDrop_acc h))
  · rfl

theorem StsTrace.setBit (s : State) (e : Ev) : StsTrace s (setBit s e) := by
  unfold Machine.setBit
  have h := (StsTrace.wr s (hdrEvt e.page) (rd s (hdrEvt e.page) + 2 ^ e.bit) (.inr rfl)).trans
    (StsTrace.wr _ (hdrEvtStamp e.page) (now s) (.inl rfl))
  dsimp only
  split
  · exact .refl s
  · split
    · exact h.trans (.tracePut _ _)
    · exact h

theorem StsTrace.setEvt (s : State) (e : Ev) : StsTrace s (setEvt s e) := by
  unfold Machine.setEvt
  dsimp only
  split
  · exact (StsTrace.setBit s e).trans (.setBit _ _)
  · exact .setBit s e

theorem StsTrace.setEvtIf (b : Bool) (s : State) (e : Ev) : StsTrace s (setEvtIf b s e) := by
  unfold Machine.setEvtIf; split
  · exact .setEvt s e
  · exact .refl s

theorem StsTrace.trace (s : State) (a b c d e f g : Nat) : StsTrace s (trace s a b c d e f g) := by
  unfold Machine.trace
  dsimp only
  split
  · split
    · exact (StsTrace.tracePut s _).trans (.setEvt _ _)
    · exact .tracePut s _
  · exact .refl s

theorem setBit_only (s : State) (e : Ev) : setBit s e = { s with sts := (setBit s e).sts, trace := (setBit s e).trace } :=
  StsTrace.setBit s e

theorem setEvt_only (s : State) (e : Ev) : setEvt s e = { s with sts := (setEvt s e).sts, trace := (setEvt s e).trace } :=
  StsTrace.setEvt s e

theorem setEvtIf_only (b : Bool) (s : State) (e : Ev) :
    setEvtIf b s e = { s with sts := (setEvtIf b s e).sts, trace := (setEvtIf b s e).trace } := StsTrace.setEvtIf b s e

theorem trace_only (s : State) (a b c d e f g : Nat) :
    trace s a b c d e f g = { s with sts := (trace s a b c d e f g).sts, trace := (trace s a b c d e f g).trace } :=
  StsTrace.trace s a b c d e f g

/-- The latency of a class-0 command changes counters, events and the trace only. -/
theorem StsTrace.noteBegin (s : State) (c : Cmd) : StsTrace s (noteBegin s c) := by
  unfold Machine.noteBegin
  generalize min (now s - c.bell) 65535 = l
  have h : ∀ m, StsTrace s (Machine.wr (Machine.wr s cmdClass0LatLast l) cmdClass0LatMax m) := fun m =>
    (StsTrace.wr s _ l (.inl rfl)).trans (.wr _ _ m (.inl rfl))
  have k : ∀ u, StsTrace u (Machine.setEvt (Machine.bump u cmdClass0LatOver 1) evClass0Over) := fun u =>
    (StsTrace.bump u _ 1 (.inl rfl)).trans (.setEvt _ _)
  dsimp only
  split
  · split
    · exact (h _).trans (k _)
    · exact h _
  · exact .refl s

theorem noteBegin_only (s : State) (c : Cmd) :
    noteBegin s c = { s with sts := (noteBegin s c).sts, trace := (noteBegin s c).trace } := StsTrace.noteBegin s c

/-- What a fold leaves alone, when each of its steps does. -/
theorem foldl_keeps {α β γ : Type} (g : β → γ) (f : β → α → β) (h : ∀ b a, g (f b a) = g b) (l : List α) (b : β) :
    g (l.foldl f b) = g b := by
  induction l generalizing b with
  | nil => rfl
  | cons a l ih => rw [List.foldl_cons, ih, h]

theorem store_only (s : State) (a : Nat) (l : List Byte) : s.store a l = { s with wbuf := (s.store a l).wbuf } := by
  unfold State.store
  generalize l.zip (List.range l.length) = z
  induction z generalizing s with
  | nil => rfl
  | cons p z ih => rw [List.foldl_cons, ih]; rfl

/-- The message of a vector is put behind the waiting C-port writes and nothing else. -/
theorem irqMessage_only (s : State) (v : Nat) : irqMessage s v = { s with cport := (irqMessage s v).cport } := by
  unfold irqMessage; split <;> rfl

theorem irqRises_only (s t : State) : irqRises s t = { t with cport := (irqRises s t).cport } := by
  unfold irqRises
  generalize List.range 4 = l
  induction l generalizing t with
  | nil => rfl
  | cons v l ih =>
    rw [List.foldl_cons, ih]
    split
    · rw [irqMessage_only]
    · rfl

theorem goOut_only (s : State) (r : MReq) : goOut s r = { s with mreqs := (goOut s r).mreqs, mwait := (goOut s r).mwait } := by
  unfold goOut; split
  · rfl
  · split <;> rfl

/-- Sending what waits changes the requests outstanding and those that wait, nothing else. -/
theorem pump_only (s : State) : pump s = { s with mreqs := (pump s).mreqs, mwait := (pump s).mwait } := by
  have h : ∀ (l : List MReq) (t : State), l.foldl goOut t = { t with mreqs := (l.foldl goOut t).mreqs, mwait := (l.foldl goOut t).mwait } := by
    intro l
    induction l with
    | nil => intro t; rfl
    | cons r l ih => intro t; rw [List.foldl_cons, ih, goOut_only]
  unfold pump
  generalize s.mwait = l
  rw [h]

theorem askRuns_only (s : State) (w : Bool) (rs : List (Nat × Nat)) (y : MPurpose) :
    askRuns s w rs y = { s with mreqs := (askRuns s w rs y).mreqs, mwait := (askRuns s w rs y).mwait } := by
  have h : ∀ (l : List (Nat × List (Nat × Nat))) (t : State) (f : State → Nat × List (Nat × Nat) → State),
      (∀ t g, f t g = { t with mwait := (f t g).mwait }) → l.foldl f t = { t with mwait := (l.foldl f t).mwait } := by
    intro l
    induction l with
    | nil => intro t f _; rfl
    | cons g l ih => intro t f hf; rw [List.foldl_cons, ih _ f hf, hf]
  unfold askRuns
  split
  · rfl
  · rw [pump_only]
    rw [h (granuleRuns rs) s _ (fun t g => rfl)]

theorem askReads_only (s : State) (k c p : Nat) (rs : List (Nat × Nat)) :
    askReads s k c p rs = { s with mreqs := (askReads s k c p rs).mreqs, mwait := (askReads s k c p rs).mwait } := askRuns_only ..

theorem awaitWrites_only (s : State) (k c : Nat) :
    awaitWrites s k c = { s with mreqs := (awaitWrites s k c).mreqs, mwait := (awaitWrites s k c).mwait } := askRuns_only ..

/-- The end of a step: the queue is that of its beginning, what was written is in memory, and nothing else moves but the
interrupt messages. -/
theorem settle_only (s t : State) :
    settle s t = { t with pending := s.pending, mem := memDrain s.mem t.wbuf, wbuf := [], rbuf := [], cport := (settle s t).cport } := by
  unfold settle; rw [irqRises_only]

@[simp] theorem settle_pending (s t : State) : (settle s t).pending = s.pending := rfl
@[simp] theorem settle_mem (s t : State) : (settle s t).mem = memDrain s.mem t.wbuf := rfl
@[simp] theorem settle_wbuf (s t : State) : (settle s t).wbuf = [] := rfl
@[simp] theorem settle_rbuf (s t : State) : (settle s t).rbuf = [] := rfl

end Sys2Proof.Machine
end

