-- ==== Sys2Proof/Laws/Fields.lean ====
section
/-! SUPPORT. The fields that register writes, events, trace records, stores and the end of a step leave as they were. -/

namespace Sys2Proof.Machine

/-! ### wr -/

@[simp] theorem wr_pending (s : State) (f : Field) (v : Nat) : (wr s f v).pending = s.pending := by rw [wr_only]
@[simp] theorem wr_mem (s : State) (f : Field) (v : Nat) : (wr s f v).mem = s.mem := by rw [wr_only]
@[simp] theorem wr_wbuf (s : State) (f : Field) (v : Nat) : (wr s f v).wbuf = s.wbuf := by rw [wr_only]
@[simp] theorem wr_queues (s : State) (f : Field) (v : Nat) : (wr s f v).queues = s.queues := by rw [wr_only]
@[simp] theorem wr_cmds (s : State) (f : Field) (v : Nat) : (wr s f v).cmds = s.cmds := by rw [wr_only]
@[simp] theorem wr_mreqs (s : State) (f : Field) (v : Nat) : (wr s f v).mreqs = s.mreqs := by rw [wr_only]
@[simp] theorem wr_rrobin (s : State) (f : Field) (v : Nat) : (wr s f v).rrobin = s.rrobin := by rw [wr_only]
@[simp] theorem wr_arrays (s : State) (f : Field) (v : Nat) : (wr s f v).arrays = s.arrays := by rw [wr_only]
@[simp] theorem wr_arrFail (s : State) (f : Field) (v : Nat) : (wr s f v).arrFail = s.arrFail := by rw [wr_only]
@[simp] theorem wr_hod (s : State) (f : Field) (v : Nat) : (wr s f v).hod = s.hod := by rw [wr_only]
@[simp] theorem wr_dyCache (s : State) (f : Field) (v : Nat) : (wr s f v).dyCache = s.dyCache := by rw [wr_only]
@[simp] theorem wr_loadw (s : State) (f : Field) (v : Nat) : (wr s f v).loadw = s.loadw := by rw [wr_only]
@[simp] theorem wr_images (s : State) (f : Field) (v : Nat) : (wr s f v).images = s.images := by rw [wr_only]
@[simp] theorem wr_lcache (s : State) (f : Field) (v : Nat) : (wr s f v).lcache = s.lcache := by rw [wr_only]
@[simp] theorem wr_lcacheAge (s : State) (f : Field) (v : Nat) : (wr s f v).lcacheAge = s.lcacheAge := by rw [wr_only]
@[simp] theorem wr_rbuf (s : State) (f : Field) (v : Nat) : (wr s f v).rbuf = s.rbuf := by rw [wr_only]
@[simp] theorem wr_mwait (s : State) (f : Field) (v : Nat) : (wr s f v).mwait = s.mwait := by rw [wr_only]
@[simp] theorem wr_staged (s : State) (f : Field) (v : Nat) : (wr s f v).staged = s.staged := by rw [wr_only]
@[simp] theorem wr_groups (s : State) (f : Field) (v : Nat) : (wr s f v).groups = s.groups := by rw [wr_only]
@[simp] theorem wr_tiles (s : State) (f : Field) (v : Nat) : (wr s f v).tiles = s.tiles := by rw [wr_only]
@[simp] theorem wr_frames (s : State) (f : Field) (v : Nat) : (wr s f v).frames = s.frames := by rw [wr_only]
@[simp] theorem wr_clock (s : State) (f : Field) (v : Nat) : (wr s f v).clock = s.clock := by rw [wr_only]
@[simp] theorem wr_preloads (s : State) (f : Field) (v : Nat) : (wr s f v).preloads = s.preloads := by rw [wr_only]
@[simp] theorem wr_diverts (s : State) (f : Field) (v : Nat) : (wr s f v).diverts = s.diverts := by rw [wr_only]
@[simp] theorem wr_folds (s : State) (f : Field) (v : Nat) : (wr s f v).folds = s.folds := by rw [wr_only]
@[simp] theorem wr_ledger (s : State) (f : Field) (v : Nat) : (wr s f v).ledger = s.ledger := by rw [wr_only]
@[simp] theorem wr_advisor (s : State) (f : Field) (v : Nat) : (wr s f v).advisor = s.advisor := by rw [wr_only]
@[simp] theorem wr_statsCom (s : State) (f : Field) (v : Nat) : (wr s f v).statsCom = s.statsCom := by rw [wr_only]
@[simp] theorem wr_statsSt (s : State) (f : Field) (v : Nat) : (wr s f v).statsSt = s.statsSt := by rw [wr_only]
@[simp] theorem wr_epoch (s : State) (f : Field) (v : Nat) : (wr s f v).epoch = s.epoch := by rw [wr_only]
@[simp] theorem wr_rxOpen (s : State) (f : Field) (v : Nat) : (wr s f v).rxOpen = s.rxOpen := by rw [wr_only]
@[simp] theorem wr_rxClosed (s : State) (f : Field) (v : Nat) : (wr s f v).rxClosed = s.rxClosed := by rw [wr_only]
@[simp] theorem wr_txq (s : State) (f : Field) (v : Nat) : (wr s f v).txq = s.txq := by rw [wr_only]
@[simp] theorem wr_txAwait (s : State) (f : Field) (v : Nat) : (wr s f v).txAwait = s.txAwait := by rw [wr_only]
@[simp] theorem wr_txState (s : State) (f : Field) (v : Nat) : (wr s f v).txState = s.txState := by rw [wr_only]
@[simp] theorem wr_frs (s : State) (f : Field) (v : Nat) : (wr s f v).frs = s.frs := by rw [wr_only]
@[simp] theorem wr_handoffs (s : State) (f : Field) (v : Nat) : (wr s f v).handoffs = s.handoffs := by rw [wr_only]
@[simp] theorem wr_snap (s : State) (f : Field) (v : Nat) : (wr s f v).snap = s.snap := by rw [wr_only]
@[simp] theorem wr_power (s : State) (f : Field) (v : Nat) : (wr s f v).power = s.power := by rw [wr_only]
@[simp] theorem wr_ras (s : State) (f : Field) (v : Nat) : (wr s f v).ras = s.ras := by rw [wr_only]
@[simp] theorem wr_tb (s : State) (f : Field) (v : Nat) : (wr s f v).tb = s.tb := by rw [wr_only]
@[simp] theorem wr_trace (s : State) (f : Field) (v : Nat) : (wr s f v).trace = s.trace := by rw [wr_only]
@[simp] theorem wr_cport (s : State) (f : Field) (v : Nat) : (wr s f v).cport = s.cport := by rw [wr_only]
@[simp] theorem wr_regData (s : State) (f : Field) (v : Nat) : (wr s f v).regData = s.regData := by rw [wr_only]
@[simp] theorem wr_regErr (s : State) (f : Field) (v : Nat) : (wr s f v).regErr = s.regErr := by rw [wr_only]
@[simp] theorem wr_bist (s : State) (f : Field) (v : Nat) : (wr s f v).bist = s.bist := by rw [wr_only]
@[simp] theorem wr_test (s : State) (f : Field) (v : Nat) : (wr s f v).test = s.test := by rw [wr_only]
@[simp] theorem wr_rstLow (s : State) (f : Field) (v : Nat) : (wr s f v).rstLow = s.rstLow := by rw [wr_only]
@[simp] theorem wr_wrstLow (s : State) (f : Field) (v : Nat) : (wr s f v).wrstLow = s.wrstLow := by rw [wr_only]
@[simp] theorem wr_quiet (s : State) (f : Field) (v : Nat) : (wr s f v).quiet = s.quiet := by rw [wr_only]
@[simp] theorem wr_free (s : State) (f : Field) (v : Nat) : (wr s f v).free = s.free := by rw [wr_only]

/-! ### bump -/

@[simp] theorem bump_pending (s : State) (f : Field) (n : Nat) : (bump s f n).pending = s.pending := by rw [bump_only]
@[simp] theorem bump_mem (s : State) (f : Field) (n : Nat) : (bump s f n).mem = s.mem := by rw [bump_only]
@[simp] theorem bump_wbuf (s : State) (f : Field) (n : Nat) : (bump s f n).wbuf = s.wbuf := by rw [bump_only]
@[simp] theorem bump_queues (s : State) (f : Field) (n : Nat) : (bump s f n).queues = s.queues := by rw [bump_only]
@[simp] theorem bump_cmds (s : State) (f : Field) (n : Nat) : (bump s f n).cmds = s.cmds := by rw [bump_only]
@[simp] theorem bump_mreqs (s : State) (f : Field) (n : Nat) : (bump s f n).mreqs = s.mreqs := by rw [bump_only]
@[simp] theorem bump_rrobin (s : State) (f : Field) (n : Nat) : (bump s f n).rrobin = s.rrobin := by rw [bump_only]
@[simp] theorem bump_arrays (s : State) (f : Field) (n : Nat) : (bump s f n).arrays = s.arrays := by rw [bump_only]
@[simp] theorem bump_arrFail (s : State) (f : Field) (n : Nat) : (bump s f n).arrFail = s.arrFail := by rw [bump_only]
@[simp] theorem bump_hod (s : State) (f : Field) (n : Nat) : (bump s f n).hod = s.hod := by rw [bump_only]
@[simp] theorem bump_dyCache (s : State) (f : Field) (n : Nat) : (bump s f n).dyCache = s.dyCache := by rw [bump_only]
@[simp] theorem bump_loadw (s : State) (f : Field) (n : Nat) : (bump s f n).loadw = s.loadw := by rw [bump_only]
@[simp] theorem bump_images (s : State) (f : Field) (n : Nat) : (bump s f n).images = s.images := by rw [bump_only]
@[simp] theorem bump_lcache (s : State) (f : Field) (n : Nat) : (bump s f n).lcache = s.lcache := by rw [bump_only]
@[simp] theorem bump_lcacheAge (s : State) (f : Field) (n : Nat) : (bump s f n).lcacheAge = s.lcacheAge := by rw [bump_only]
@[simp] theorem bump_rbuf (s : State) (f : Field) (n : Nat) : (bump s f n).rbuf = s.rbuf := by rw [bump_only]
@[simp] theorem bump_mwait (s : State) (f : Field) (n : Nat) : (bump s f n).mwait = s.mwait := by rw [bump_only]
@[simp] theorem bump_staged (s : State) (f : Field) (n : Nat) : (bump s f n).staged = s.staged := by rw [bump_only]
@[simp] theorem bump_groups (s : State) (f : Field) (n : Nat) : (bump s f n).groups = s.groups := by rw [bump_only]
@[simp] theorem bump_tiles (s : State) (f : Field) (n : Nat) : (bump s f n).tiles = s.tiles := by rw [bump_only]
@[simp] theorem bump_frames (s : State) (f : Field) (n : Nat) : (bump s f n).frames = s.frames := by rw [bump_only]
@[simp] theorem bump_clock (s : State) (f : Field) (n : Nat) : (bump s f n).clock = s.clock := by rw [bump_only]
@[simp] theorem bump_preloads (s : State) (f : Field) (n : Nat) : (bump s f n).preloads = s.preloads := by rw [bump_only]
@[simp] theorem bump_diverts (s : State) (f : Field) (n : Nat) : (bump s f n).diverts = s.diverts := by rw [bump_only]
@[simp] theorem bump_folds (s : State) (f : Field) (n : Nat) : (bump s f n).folds = s.folds := by rw [bump_only]
@[simp] theorem bump_ledger (s : State) (f : Field) (n : Nat) : (bump s f n).ledger = s.ledger := by rw [bump_only]
@[simp] theorem bump_advisor (s : State) (f : Field) (n : Nat) : (bump s f n).advisor = s.advisor := by rw [bump_only]
@[simp] theorem bump_statsCom (s : State) (f : Field) (n : Nat) : (bump s f n).statsCom = s.statsCom := by rw [bump_only]
@[simp] theorem bump_statsSt (s : State) (f : Field) (n : Nat) : (bump s f n).statsSt = s.statsSt := by rw [bump_only]
@[simp] theorem bump_epoch (s : State) (f : Field) (n : Nat) : (bump s f n).epoch = s.epoch := by rw [bump_only]
@[simp] theorem bump_rxOpen (s : State) (f : Field) (n : Nat) : (bump s f n).rxOpen = s.rxOpen := by rw [bump_only]
@[simp] theorem bump_rxClosed (s : State) (f : Field) (n : Nat) : (bump s f n).rxClosed = s.rxClosed := by rw [bump_only]
@[simp] theorem bump_txq (s : State) (f : Field) (n : Nat) : (bump s f n).txq = s.txq := by rw [bump_only]
@[simp] theorem bump_txAwait (s : State) (f : Field) (n : Nat) : (bump s f n).txAwait = s.txAwait := by rw [bump_only]
@[simp] theorem bump_txState (s : State) (f : Field) (n : Nat) : (bump s f n).txState = s.txState := by rw [bump_only]
@[simp] theorem bump_frs (s : State) (f : Field) (n : Nat) : (bump s f n).frs = s.frs := by rw [bump_only]
@[simp] theorem bump_handoffs (s : State) (f : Field) (n : Nat) : (bump s f n).handoffs = s.handoffs := by rw [bump_only]
@[simp] theorem bump_snap (s : State) (f : Field) (n : Nat) : (bump s f n).snap = s.snap := by rw [bump_only]
@[simp] theorem bump_power (s : State) (f : Field) (n : Nat) : (bump s f n).power = s.power := by rw [bump_only]
@[simp] theorem bump_ras (s : State) (f : Field) (n : Nat) : (bump s f n).ras = s.ras := by rw [bump_only]
@[simp] theorem bump_tb (s : State) (f : Field) (n : Nat) : (bump s f n).tb = s.tb := by rw [bump_only]
@[simp] theorem bump_trace (s : State) (f : Field) (n : Nat) : (bump s f n).trace = s.trace := by rw [bump_only]
@[simp] theorem bump_cport (s : State) (f : Field) (n : Nat) : (bump s f n).cport = s.cport := by rw [bump_only]
@[simp] theorem bump_regData (s : State) (f : Field) (n : Nat) : (bump s f n).regData = s.regData := by rw [bump_only]
@[simp] theorem bump_regErr (s : State) (f : Field) (n : Nat) : (bump s f n).regErr = s.regErr := by rw [bump_only]
@[simp] theorem bump_bist (s : State) (f : Field) (n : Nat) : (bump s f n).bist = s.bist := by rw [bump_only]
@[simp] theorem bump_test (s : State) (f : Field) (n : Nat) : (bump s f n).test = s.test := by rw [bump_only]
@[simp] theorem bump_rstLow (s : State) (f : Field) (n : Nat) : (bump s f n).rstLow = s.rstLow := by rw [bump_only]
@[simp] theorem bump_wrstLow (s : State) (f : Field) (n : Nat) : (bump s f n).wrstLow = s.wrstLow := by rw [bump_only]
@[simp] theorem bump_quiet (s : State) (f : Field) (n : Nat) : (bump s f n).quiet = s.quiet := by rw [bump_only]
@[simp] theorem bump_free (s : State) (f : Field) (n : Nat) : (bump s f n).free = s.free := by rw [bump_only]

/-! ### setBit -/

@[simp] theorem setBit_pending (s : State) (e : Ev) : (setBit s e).pending = s.pending := by rw [setBit_only]
@[simp] theorem setBit_mem (s : State) (e : Ev) : (setBit s e).mem = s.mem := by rw [setBit_only]
@[simp] theorem setBit_wbuf (s : State) (e : Ev) : (setBit s e).wbuf = s.wbuf := by rw [setBit_only]
@[simp] theorem setBit_cfg (s : State) (e : Ev) : (setBit s e).cfg = s.cfg := by rw [setBit_only]
@[simp] theorem setBit_queues (s : State) (e : Ev) : (setBit s e).queues = s.queues := by rw [setBit_only]
@[simp] theorem setBit_cmds (s : State) (e : Ev) : (setBit s e).cmds = s.cmds := by rw [setBit_only]
@[simp] theorem setBit_mreqs (s : State) (e : Ev) : (setBit s e).mreqs = s.mreqs := by rw [setBit_only]
@[simp] theorem setBit_rrobin (s : State) (e : Ev) : (setBit s e).rrobin = s.rrobin := by rw [setBit_only]
@[simp] theorem setBit_arrays (s : State) (e : Ev) : (setBit s e).arrays = s.arrays := by rw [setBit_only]
@[simp] theorem setBit_arrFail (s : State) (e : Ev) : (setBit s e).arrFail = s.arrFail := by rw [setBit_only]
@[simp] theorem setBit_hod (s : State) (e : Ev) : (setBit s e).hod = s.hod := by rw [setBit_only]
@[simp] theorem setBit_dyCache (s : State) (e : Ev) : (setBit s e).dyCache = s.dyCache := by rw [setBit_only]
@[simp] theorem setBit_loadw (s : State) (e : Ev) : (setBit s e).loadw = s.loadw := by rw [setBit_only]
@[simp] theorem setBit_images (s : State) (e : Ev) : (setBit s e).images = s.images := by rw [setBit_only]
@[simp] theorem setBit_lcache (s : State) (e : Ev) : (setBit s e).lcache = s.lcache := by rw [setBit_only]
@[simp] theorem setBit_lcacheAge (s : State) (e : Ev) : (setBit s e).lcacheAge = s.lcacheAge := by rw [setBit_only]
@[simp] theorem setBit_rbuf (s : State) (e : Ev) : (setBit s e).rbuf = s.rbuf := by rw [setBit_only]
@[simp] theorem setBit_mwait (s : State) (e : Ev) : (setBit s e).mwait = s.mwait := by rw [setBit_only]
@[simp] theorem setBit_staged (s : State) (e : Ev) : (setBit s e).staged = s.staged := by rw [setBit_only]
@[simp] theorem setBit_groups (s : State) (e : Ev) : (setBit s e).groups = s.groups := by rw [setBit_only]
@[simp] theorem setBit_tiles (s : State) (e : Ev) : (setBit s e).tiles = s.tiles := by rw [setBit_only]
@[simp] theorem setBit_frames (s : State) (e : Ev) : (setBit s e).frames = s.frames := by rw [setBit_only]
@[simp] theorem setBit_clock (s : State) (e : Ev) : (setBit s e).clock = s.clock := by rw [setBit_only]
@[simp] theorem setBit_preloads (s : State) (e : Ev) : (setBit s e).preloads = s.preloads := by rw [setBit_only]
@[simp] theorem setBit_diverts (s : State) (e : Ev) : (setBit s e).diverts = s.diverts := by rw [setBit_only]
@[simp] theorem setBit_folds (s : State) (e : Ev) : (setBit s e).folds = s.folds := by rw [setBit_only]
@[simp] theorem setBit_ledger (s : State) (e : Ev) : (setBit s e).ledger = s.ledger := by rw [setBit_only]
@[simp] theorem setBit_advisor (s : State) (e : Ev) : (setBit s e).advisor = s.advisor := by rw [setBit_only]
@[simp] theorem setBit_statsCom (s : State) (e : Ev) : (setBit s e).statsCom = s.statsCom := by rw [setBit_only]
@[simp] theorem setBit_statsSt (s : State) (e : Ev) : (setBit s e).statsSt = s.statsSt := by rw [setBit_only]
@[simp] theorem setBit_epoch (s : State) (e : Ev) : (setBit s e).epoch = s.epoch := by rw [setBit_only]
@[simp] theorem setBit_rxOpen (s : State) (e : Ev) : (setBit s e).rxOpen = s.rxOpen := by rw [setBit_only]
@[simp] theorem setBit_rxClosed (s : State) (e : Ev) : (setBit s e).rxClosed = s.rxClosed := by rw [setBit_only]
@[simp] theorem setBit_txq (s : State) (e : Ev) : (setBit s e).txq = s.txq := by rw [setBit_only]
@[simp] theorem setBit_txAwait (s : State) (e : Ev) : (setBit s e).txAwait = s.txAwait := by rw [setBit_only]
@[simp] theorem setBit_txState (s : State) (e : Ev) : (setBit s e).txState = s.txState := by rw [setBit_only]
@[simp] theorem setBit_frs (s : State) (e : Ev) : (setBit s e).frs = s.frs := by rw [setBit_only]
@[simp] theorem setBit_handoffs (s : State) (e : Ev) : (setBit s e).handoffs = s.handoffs := by rw [setBit_only]
@[simp] theorem setBit_snap (s : State) (e : Ev) : (setBit s e).snap = s.snap := by rw [setBit_only]
@[simp] theorem setBit_power (s : State) (e : Ev) : (setBit s e).power = s.power := by rw [setBit_only]
@[simp] theorem setBit_ras (s : State) (e : Ev) : (setBit s e).ras = s.ras := by rw [setBit_only]
@[simp] theorem setBit_tb (s : State) (e : Ev) : (setBit s e).tb = s.tb := by rw [setBit_only]
@[simp] theorem setBit_cport (s : State) (e : Ev) : (setBit s e).cport = s.cport := by rw [setBit_only]
@[simp] theorem setBit_regData (s : State) (e : Ev) : (setBit s e).regData = s.regData := by rw [setBit_only]
@[simp] theorem setBit_regErr (s : State) (e : Ev) : (setBit s e).regErr = s.regErr := by rw [setBit_only]
@[simp] theorem setBit_bist (s : State) (e : Ev) : (setBit s e).bist = s.bist := by rw [setBit_only]
@[simp] theorem setBit_test (s : State) (e : Ev) : (setBit s e).test = s.test := by rw [setBit_only]
@[simp] theorem setBit_rstLow (s : State) (e : Ev) : (setBit s e).rstLow = s.rstLow := by rw [setBit_only]
@[simp] theorem setBit_wrstLow (s : State) (e : Ev) : (setBit s e).wrstLow = s.wrstLow := by rw [setBit_only]
@[simp] theorem setBit_quiet (s : State) (e : Ev) : (setBit s e).quiet = s.quiet := by rw [setBit_only]
@[simp] theorem setBit_free (s : State) (e : Ev) : (setBit s e).free = s.free := by rw [setBit_only]

/-! ### setEvt -/

@[simp] theorem setEvt_pending (s : State) (e : Ev) : (setEvt s e).pending = s.pending := by rw [setEvt_only]
@[simp] theorem setEvt_mem (s : State) (e : Ev) : (setEvt s e).mem = s.mem := by rw [setEvt_only]
@[simp] theorem setEvt_wbuf (s : State) (e : Ev) : (setEvt s e).wbuf = s.wbuf := by rw [setEvt_only]
@[simp] theorem setEvt_cfg (s : State) (e : Ev) : (setEvt s e).cfg = s.cfg := by rw [setEvt_only]
@[simp] theorem setEvt_queues (s : State) (e : Ev) : (setEvt s e).queues = s.queues := by rw [setEvt_only]
@[simp] theorem setEvt_cmds (s : State) (e : Ev) : (setEvt s e).cmds = s.cmds := by rw [setEvt_only]
@[simp] theorem setEvt_mreqs (s : State) (e : Ev) : (setEvt s e).mreqs = s.mreqs := by rw [setEvt_only]
@[simp] theorem setEvt_rrobin (s : State) (e : Ev) : (setEvt s e).rrobin = s.rrobin := by rw [setEvt_only]
@[simp] theorem setEvt_arrays (s : State) (e : Ev) : (setEvt s e).arrays = s.arrays := by rw [setEvt_only]
@[simp] theorem setEvt_arrFail (s : State) (e : Ev) : (setEvt s e).arrFail = s.arrFail := by rw [setEvt_only]
@[simp] theorem setEvt_hod (s : State) (e : Ev) : (setEvt s e).hod = s.hod := by rw [setEvt_only]
@[simp] theorem setEvt_dyCache (s : State) (e : Ev) : (setEvt s e).dyCache = s.dyCache := by rw [setEvt_only]
@[simp] theorem setEvt_loadw (s : State) (e : Ev) : (setEvt s e).loadw = s.loadw := by rw [setEvt_only]
@[simp] theorem setEvt_images (s : State) (e : Ev) : (setEvt s e).images = s.images := by rw [setEvt_only]
@[simp] theorem setEvt_lcache (s : State) (e : Ev) : (setEvt s e).lcache = s.lcache := by rw [setEvt_only]
@[simp] theorem setEvt_lcacheAge (s : State) (e : Ev) : (setEvt s e).lcacheAge = s.lcacheAge := by rw [setEvt_only]
@[simp] theorem setEvt_rbuf (s : State) (e : Ev) : (setEvt s e).rbuf = s.rbuf := by rw [setEvt_only]
@[simp] theorem setEvt_mwait (s : State) (e : Ev) : (setEvt s e).mwait = s.mwait := by rw [setEvt_only]
@[simp] theorem setEvt_staged (s : State) (e : Ev) : (setEvt s e).staged = s.staged := by rw [setEvt_only]
@[simp] theorem setEvt_groups (s : State) (e : Ev) : (setEvt s e).groups = s.groups := by rw [setEvt_only]
@[simp] theorem setEvt_tiles (s : State) (e : Ev) : (setEvt s e).tiles = s.tiles := by rw [setEvt_only]
@[simp] theorem setEvt_frames (s : State) (e : Ev) : (setEvt s e).frames = s.frames := by rw [setEvt_only]
@[simp] theorem setEvt_clock (s : State) (e : Ev) : (setEvt s e).clock = s.clock := by rw [setEvt_only]
@[simp] theorem setEvt_preloads (s : State) (e : Ev) : (setEvt s e).preloads = s.preloads := by rw [setEvt_only]
@[simp] theorem setEvt_diverts (s : State) (e : Ev) : (setEvt s e).diverts = s.diverts := by rw [setEvt_only]
@[simp] theorem setEvt_folds (s : State) (e : Ev) : (setEvt s e).folds = s.folds := by rw [setEvt_only]
@[simp] theorem setEvt_ledger (s : State) (e : Ev) : (setEvt s e).ledger = s.ledger := by rw [setEvt_only]
@[simp] theorem setEvt_advisor (s : State) (e : Ev) : (setEvt s e).advisor = s.advisor := by rw [setEvt_only]
@[simp] theorem setEvt_statsCom (s : State) (e : Ev) : (setEvt s e).statsCom = s.statsCom := by rw [setEvt_only]
@[simp] theorem setEvt_statsSt (s : State) (e : Ev) : (setEvt s e).statsSt = s.statsSt := by rw [setEvt_only]
@[simp] theorem setEvt_epoch (s : State) (e : Ev) : (setEvt s e).epoch = s.epoch := by rw [setEvt_only]
@[simp] theorem setEvt_rxOpen (s : State) (e : Ev) : (setEvt s e).rxOpen = s.rxOpen := by rw [setEvt_only]
@[simp] theorem setEvt_rxClosed (s : State) (e : Ev) : (setEvt s e).rxClosed = s.rxClosed := by rw [setEvt_only]
@[simp] theorem setEvt_txq (s : State) (e : Ev) : (setEvt s e).txq = s.txq := by rw [setEvt_only]
@[simp] theorem setEvt_txAwait (s : State) (e : Ev) : (setEvt s e).txAwait = s.txAwait := by rw [setEvt_only]
@[simp] theorem setEvt_txState (s : State) (e : Ev) : (setEvt s e).txState = s.txState := by rw [setEvt_only]
@[simp] theorem setEvt_frs (s : State) (e : Ev) : (setEvt s e).frs = s.frs := by rw [setEvt_only]
@[simp] theorem setEvt_handoffs (s : State) (e : Ev) : (setEvt s e).handoffs = s.handoffs := by rw [setEvt_only]
@[simp] theorem setEvt_snap (s : State) (e : Ev) : (setEvt s e).snap = s.snap := by rw [setEvt_only]
@[simp] theorem setEvt_power (s : State) (e : Ev) : (setEvt s e).power = s.power := by rw [setEvt_only]
@[simp] theorem setEvt_ras (s : State) (e : Ev) : (setEvt s e).ras = s.ras := by rw [setEvt_only]
@[simp] theorem setEvt_tb (s : State) (e : Ev) : (setEvt s e).tb = s.tb := by rw [setEvt_only]
@[simp] theorem setEvt_cport (s : State) (e : Ev) : (setEvt s e).cport = s.cport := by rw [setEvt_only]
@[simp] theorem setEvt_regData (s : State) (e : Ev) : (setEvt s e).regData = s.regData := by rw [setEvt_only]
@[simp] theorem setEvt_regErr (s : State) (e : Ev) : (setEvt s e).regErr = s.regErr := by rw [setEvt_only]
@[simp] theorem setEvt_bist (s : State) (e : Ev) : (setEvt s e).bist = s.bist := by rw [setEvt_only]
@[simp] theorem setEvt_test (s : State) (e : Ev) : (setEvt s e).test = s.test := by rw [setEvt_only]
@[simp] theorem setEvt_rstLow (s : State) (e : Ev) : (setEvt s e).rstLow = s.rstLow := by rw [setEvt_only]
@[simp] theorem setEvt_wrstLow (s : State) (e : Ev) : (setEvt s e).wrstLow = s.wrstLow := by rw [setEvt_only]
@[simp] theorem setEvt_quiet (s : State) (e : Ev) : (setEvt s e).quiet = s.quiet := by rw [setEvt_only]
@[simp] theorem setEvt_free (s : State) (e : Ev) : (setEvt s e).free = s.free := by rw [setEvt_only]

/-! ### setEvtIf -/

@[simp] theorem setEvtIf_pending (b : Bool) (s : State) (e : Ev) : (setEvtIf b s e).pending = s.pending := by rw [setEvtIf_only]
@[simp] theorem setEvtIf_mem (b : Bool) (s : State) (e : Ev) : (setEvtIf b s e).mem = s.mem := by rw [setEvtIf_only]
@[simp] theorem setEvtIf_wbuf (b : Bool) (s : State) (e : Ev) : (setEvtIf b s e).wbuf = s.wbuf := by rw [setEvtIf_only]
@[simp] theorem setEvtIf_cfg (b : Bool) (s : State) (e : Ev) : (setEvtIf b s e).cfg = s.cfg := by rw [setEvtIf_only]
@[simp] theorem setEvtIf_queues (b : Bool) (s : State) (e : Ev) : (setEvtIf b s e).queues = s.queues := by rw [setEvtIf_only]
@[simp] theorem setEvtIf_cmds (b : Bool) (s : State) (e : Ev) : (setEvtIf b s e).cmds = s.cmds := by rw [setEvtIf_only]
@[simp] theorem setEvtIf_mreqs (b : Bool) (s : State) (e : Ev) : (setEvtIf b s e).mreqs = s.mreqs := by rw [setEvtIf_only]
@[simp] theorem setEvtIf_rrobin (b : Bool) (s : State) (e : Ev) : (setEvtIf b s e).rrobin = s.rrobin := by rw [setEvtIf_only]
@[simp] theorem setEvtIf_arrays (b : Bool) (s : State) (e : Ev) : (setEvtIf b s e).arrays = s.arrays := by rw [setEvtIf_only]
@[simp] theorem setEvtIf_arrFail (b : Bool) (s : State) (e : Ev) : (setEvtIf b s e).arrFail = s.arrFail := by rw [setEvtIf_only]
@[simp] theorem setEvtIf_hod (b : Bool) (s : State) (e : Ev) : (setEvtIf b s e).hod = s.hod := by rw [setEvtIf_only]
@[simp] theorem setEvtIf_dyCache (b : Bool) (s : State) (e : Ev) : (setEvtIf b s e).dyCache = s.dyCache := by rw [setEvtIf_only]
@[simp] theorem setEvtIf_loadw (b : Bool) (s : State) (e : Ev) : (setEvtIf b s e).loadw = s.loadw := by rw [setEvtIf_only]
@[simp] theorem setEvtIf_images (b : Bool) (s : State) (e : Ev) : (setEvtIf b s e).images = s.images := by rw [setEvtIf_only]
@[simp] theorem setEvtIf_lcache (b : Bool) (s : State) (e : Ev) : (setEvtIf b s e).lcache = s.lcache := by rw [setEvtIf_only]
@[simp] theorem setEvtIf_lcacheAge (b : Bool) (s : State) (e : Ev) : (setEvtIf b s e).lcacheAge = s.lcacheAge := by rw [setEvtIf_only]
@[simp] theorem setEvtIf_rbuf (b : Bool) (s : State) (e : Ev) : (setEvtIf b s e).rbuf = s.rbuf := by rw [setEvtIf_only]
@[simp] theorem setEvtIf_mwait (b : Bool) (s : State) (e : Ev) : (setEvtIf b s e).mwait = s.mwait := by rw [setEvtIf_only]
@[simp] theorem setEvtIf_staged (b : Bool) (s : State) (e : Ev) : (setEvtIf b s e).staged = s.staged := by rw [setEvtIf_only]
@[simp] theorem setEvtIf_groups (b : Bool) (s : State) (e : Ev) : (setEvtIf b s e).groups = s.groups := by rw [setEvtIf_only]
@[simp] theorem setEvtIf_tiles (b : Bool) (s : State) (e : Ev) : (setEvtIf b s e).tiles = s.tiles := by rw [setEvtIf_only]
@[simp] theorem setEvtIf_frames (b : Bool) (s : State) (e : Ev) : (setEvtIf b s e).frames = s.frames := by rw [setEvtIf_only]
@[simp] theorem setEvtIf_clock (b : Bool) (s : State) (e : Ev) : (setEvtIf b s e).clock = s.clock := by rw [setEvtIf_only]
@[simp] theorem setEvtIf_preloads (b : Bool) (s : State) (e : Ev) : (setEvtIf b s e).preloads = s.preloads := by rw [setEvtIf_only]
@[simp] theorem setEvtIf_diverts (b : Bool) (s : State) (e : Ev) : (setEvtIf b s e).diverts = s.diverts := by rw [setEvtIf_only]
@[simp] theorem setEvtIf_folds (b : Bool) (s : State) (e : Ev) : (setEvtIf b s e).folds = s.folds := by rw [setEvtIf_only]
@[simp] theorem setEvtIf_ledger (b : Bool) (s : State) (e : Ev) : (setEvtIf b s e).ledger = s.ledger := by rw [setEvtIf_only]
@[simp] theorem setEvtIf_advisor (b : Bool) (s : State) (e : Ev) : (setEvtIf b s e).advisor = s.advisor := by rw [setEvtIf_only]
@[simp] theorem setEvtIf_statsCom (b : Bool) (s : State) (e : Ev) : (setEvtIf b s e).statsCom = s.statsCom := by rw [setEvtIf_only]
@[simp] theorem setEvtIf_statsSt (b : Bool) (s : State) (e : Ev) : (setEvtIf b s e).statsSt = s.statsSt := by rw [setEvtIf_only]
@[simp] theorem setEvtIf_epoch (b : Bool) (s : State) (e : Ev) : (setEvtIf b s e).epoch = s.epoch := by rw [setEvtIf_only]
@[simp] theorem setEvtIf_rxOpen (b : Bool) (s : State) (e : Ev) : (setEvtIf b s e).rxOpen = s.rxOpen := by rw [setEvtIf_only]
@[simp] theorem setEvtIf_rxClosed (b : Bool) (s : State) (e : Ev) : (setEvtIf b s e).rxClosed = s.rxClosed := by rw [setEvtIf_only]
@[simp] theorem setEvtIf_txq (b : Bool) (s : State) (e : Ev) : (setEvtIf b s e).txq = s.txq := by rw [setEvtIf_only]
@[simp] theorem setEvtIf_txAwait (b : Bool) (s : State) (e : Ev) : (setEvtIf b s e).txAwait = s.txAwait := by rw [setEvtIf_only]
@[simp] theorem setEvtIf_txState (b : Bool) (s : State) (e : Ev) : (setEvtIf b s e).txState = s.txState := by rw [setEvtIf_only]
@[simp] theorem setEvtIf_frs (b : Bool) (s : State) (e : Ev) : (setEvtIf b s e).frs = s.frs := by rw [setEvtIf_only]
@[simp] theorem setEvtIf_handoffs (b : Bool) (s : State) (e : Ev) : (setEvtIf b s e).handoffs = s.handoffs := by rw [setEvtIf_only]
@[simp] theorem setEvtIf_snap (b : Bool) (s : State) (e : Ev) : (setEvtIf b s e).snap = s.snap := by rw [setEvtIf_only]
@[simp] theorem setEvtIf_power (b : Bool) (s : State) (e : Ev) : (setEvtIf b s e).power = s.power := by rw [setEvtIf_only]
@[simp] theorem setEvtIf_ras (b : Bool) (s : State) (e : Ev) : (setEvtIf b s e).ras = s.ras := by rw [setEvtIf_only]
@[simp] theorem setEvtIf_tb (b : Bool) (s : State) (e : Ev) : (setEvtIf b s e).tb = s.tb := by rw [setEvtIf_only]
@[simp] theorem setEvtIf_cport (b : Bool) (s : State) (e : Ev) : (setEvtIf b s e).cport = s.cport := by rw [setEvtIf_only]
@[simp] theorem setEvtIf_regData (b : Bool) (s : State) (e : Ev) : (setEvtIf b s e).regData = s.regData := by rw [setEvtIf_only]
@[simp] theorem setEvtIf_regErr (b : Bool) (s : State) (e : Ev) : (setEvtIf b s e).regErr = s.regErr := by rw [setEvtIf_only]
@[simp] theorem setEvtIf_bist (b : Bool) (s : State) (e : Ev) : (setEvtIf b s e).bist = s.bist := by rw [setEvtIf_only]
@[simp] theorem setEvtIf_test (b : Bool) (s : State) (e : Ev) : (setEvtIf b s e).test = s.test := by rw [setEvtIf_only]
@[simp] theorem setEvtIf_rstLow (b : Bool) (s : State) (e : Ev) : (setEvtIf b s e).rstLow = s.rstLow := by rw [setEvtIf_only]
@[simp] theorem setEvtIf_wrstLow (b : Bool) (s : State) (e : Ev) : (setEvtIf b s e).wrstLow = s.wrstLow := by rw [setEvtIf_only]
@[simp] theorem setEvtIf_quiet (b : Bool) (s : State) (e : Ev) : (setEvtIf b s e).quiet = s.quiet := by rw [setEvtIf_only]
@[simp] theorem setEvtIf_free (b : Bool) (s : State) (e : Ev) : (setEvtIf b s e).free = s.free := by rw [setEvtIf_only]

/-! ### trace -/

@[simp] theorem trace_pending (s : State) (a b c d e f g : Nat) : (Machine.trace s a b c d e f g).pending = s.pending := by rw [trace_only]
@[simp] theorem trace_mem (s : State) (a b c d e f g : Nat) : (Machine.trace s a b c d e f g).mem = s.mem := by rw [trace_only]
@[simp] theorem trace_wbuf (s : State) (a b c d e f g : Nat) : (Machine.trace s a b c d e f g).wbuf = s.wbuf := by rw [trace_only]
@[simp] theorem trace_cfg (s : State) (a b c d e f g : Nat) : (Machine.trace s a b c d e f g).cfg = s.cfg := by rw [trace_only]
@[simp] theorem trace_queues (s : State) (a b c d e f g : Nat) : (Machine.trace s a b c d e f g).queues = s.queues := by rw [trace_only]
@[simp] theorem trace_cmds (s : State) (a b c d e f g : Nat) : (Machine.trace s a b c d e f g).cmds = s.cmds := by rw [trace_only]
@[simp] theorem trace_mreqs (s : State) (a b c d e f g : Nat) : (Machine.trace s a b c d e f g).mreqs = s.mreqs := by rw [trace_only]
@[simp] theorem trace_rrobin (s : State) (a b c d e f g : Nat) : (Machine.trace s a b c d e f g).rrobin = s.rrobin := by rw [trace_only]
@[simp] theorem trace_arrays (s : State) (a b c d e f g : Nat) : (Machine.trace s a b c d e f g).arrays = s.arrays := by rw [trace_only]
@[simp] theorem trace_arrFail (s : State) (a b c d e f g : Nat) : (Machine.trace s a b c d e f g).arrFail = s.arrFail := by rw [trace_only]
@[simp] theorem trace_hod (s : State) (a b c d e f g : Nat) : (Machine.trace s a b c d e f g).hod = s.hod := by rw [trace_only]
@[simp] theorem trace_dyCache (s : State) (a b c d e f g : Nat) : (Machine.trace s a b c d e f g).dyCache = s.dyCache := by rw [trace_only]
@[simp] theorem trace_loadw (s : State) (a b c d e f g : Nat) : (Machine.trace s a b c d e f g).loadw = s.loadw := by rw [trace_only]
@[simp] theorem trace_images (s : State) (a b c d e f g : Nat) : (Machine.trace s a b c d e f g).images = s.images := by rw [trace_only]
@[simp] theorem trace_lcache (s : State) (a b c d e f g : Nat) : (Machine.trace s a b c d e f g).lcache = s.lcache := by rw [trace_only]
@[simp] theorem trace_lcacheAge (s : State) (a b c d e f g : Nat) : (Machine.trace s a b c d e f g).lcacheAge = s.lcacheAge := by rw [trace_only]
@[simp] theorem trace_rbuf (s : State) (a b c d e f g : Nat) : (Machine.trace s a b c d e f g).rbuf = s.rbuf := by rw [trace_only]
@[simp] theorem trace_mwait (s : State) (a b c d e f g : Nat) : (Machine.trace s a b c d e f g).mwait = s.mwait := by rw [trace_only]
@[simp] theorem trace_staged (s : State) (a b c d e f g : Nat) : (Machine.trace s a b c d e f g).staged = s.staged := by rw [trace_only]
@[simp] theorem trace_groups (s : State) (a b c d e f g : Nat) : (Machine.trace s a b c d e f g).groups = s.groups := by rw [trace_only]
@[simp] theorem trace_tiles (s : State) (a b c d e f g : Nat) : (Machine.trace s a b c d e f g).tiles = s.tiles := by rw [trace_only]
@[simp] theorem trace_frames (s : State) (a b c d e f g : Nat) : (Machine.trace s a b c d e f g).frames = s.frames := by rw [trace_only]
@[simp] theorem trace_clock (s : State) (a b c d e f g : Nat) : (Machine.trace s a b c d e f g).clock = s.clock := by rw [trace_only]
@[simp] theorem trace_preloads (s : State) (a b c d e f g : Nat) : (Machine.trace s a b c d e f g).preloads = s.preloads := by rw [trace_only]
@[simp] theorem trace_diverts (s : State) (a b c d e f g : Nat) : (Machine.trace s a b c d e f g).diverts = s.diverts := by rw [trace_only]
@[simp] theorem trace_folds (s : State) (a b c d e f g : Nat) : (Machine.trace s a b c d e f g).folds = s.folds := by rw [trace_only]
@[simp] theorem trace_ledger (s : State) (a b c d e f g : Nat) : (Machine.trace s a b c d e f g).ledger = s.ledger := by rw [trace_only]
@[simp] theorem trace_advisor (s : State) (a b c d e f g : Nat) : (Machine.trace s a b c d e f g).advisor = s.advisor := by rw [trace_only]
@[simp] theorem trace_statsCom (s : State) (a b c d e f g : Nat) : (Machine.trace s a b c d e f g).statsCom = s.statsCom := by rw [trace_only]
@[simp] theorem trace_statsSt (s : State) (a b c d e f g : Nat) : (Machine.trace s a b c d e f g).statsSt = s.statsSt := by rw [trace_only]
@[simp] theorem trace_epoch (s : State) (a b c d e f g : Nat) : (Machine.trace s a b c d e f g).epoch = s.epoch := by rw [trace_only]
@[simp] theorem trace_rxOpen (s : State) (a b c d e f g : Nat) : (Machine.trace s a b c d e f g).rxOpen = s.rxOpen := by rw [trace_only]
@[simp] theorem trace_rxClosed (s : State) (a b c d e f g : Nat) : (Machine.trace s a b c d e f g).rxClosed = s.rxClosed := by rw [trace_only]
@[simp] theorem trace_txq (s : State) (a b c d e f g : Nat) : (Machine.trace s a b c d e f g).txq = s.txq := by rw [trace_only]
@[simp] theorem trace_txAwait (s : State) (a b c d e f g : Nat) : (Machine.trace s a b c d e f g).txAwait = s.txAwait := by rw [trace_only]
@[simp] theorem trace_txState (s : State) (a b c d e f g : Nat) : (Machine.trace s a b c d e f g).txState = s.txState := by rw [trace_only]
@[simp] theorem trace_frs (s : State) (a b c d e f g : Nat) : (Machine.trace s a b c d e f g).frs = s.frs := by rw [trace_only]
@[simp] theorem trace_handoffs (s : State) (a b c d e f g : Nat) : (Machine.trace s a b c d e f g).handoffs = s.handoffs := by rw [trace_only]
@[simp] theorem trace_snap (s : State) (a b c d e f g : Nat) : (Machine.trace s a b c d e f g).snap = s.snap := by rw [trace_only]
@[simp] theorem trace_power (s : State) (a b c d e f g : Nat) : (Machine.trace s a b c d e f g).power = s.power := by rw [trace_only]
@[simp] theorem trace_ras (s : State) (a b c d e f g : Nat) : (Machine.trace s a b c d e f g).ras = s.ras := by rw [trace_only]
@[simp] theorem trace_tb (s : State) (a b c d e f g : Nat) : (Machine.trace s a b c d e f g).tb = s.tb := by rw [trace_only]
@[simp] theorem trace_cport (s : State) (a b c d e f g : Nat) : (Machine.trace s a b c d e f g).cport = s.cport := by rw [trace_only]
@[simp] theorem trace_regData (s : State) (a b c d e f g : Nat) : (Machine.trace s a b c d e f g).regData = s.regData := by rw [trace_only]
@[simp] theorem trace_regErr (s : State) (a b c d e f g : Nat) : (Machine.trace s a b c d e f g).regErr = s.regErr := by rw [trace_only]
@[simp] theorem trace_bist (s : State) (a b c d e f g : Nat) : (Machine.trace s a b c d e f g).bist = s.bist := by rw [trace_only]
@[simp] theorem trace_test (s : State) (a b c d e f g : Nat) : (Machine.trace s a b c d e f g).test = s.test := by rw [trace_only]
@[simp] theorem trace_rstLow (s : State) (a b c d e f g : Nat) : (Machine.trace s a b c d e f g).rstLow = s.rstLow := by rw [trace_only]
@[simp] theorem trace_wrstLow (s : State) (a b c d e f g : Nat) : (Machine.trace s a b c d e f g).wrstLow = s.wrstLow := by rw [trace_only]
@[simp] theorem trace_quiet (s : State) (a b c d e f g : Nat) : (Machine.trace s a b c d e f g).quiet = s.quiet := by rw [trace_only]
@[simp] theorem trace_free (s : State) (a b c d e f g : Nat) : (Machine.trace s a b c d e f g).free = s.free := by rw [trace_only]

/-! ### store -/

@[simp] theorem store_pending (s : State) (a : Nat) (l : List Byte) : (s.store a l).pending = s.pending := by rw [store_only]
@[simp] theorem store_mem (s : State) (a : Nat) (l : List Byte) : (s.store a l).mem = s.mem := by rw [store_only]
@[simp] theorem store_cfg (s : State) (a : Nat) (l : List Byte) : (s.store a l).cfg = s.cfg := by rw [store_only]
@[simp] theorem store_sts (s : State) (a : Nat) (l : List Byte) : (s.store a l).sts = s.sts := by rw [store_only]
@[simp] theorem store_queues (s : State) (a : Nat) (l : List Byte) : (s.store a l).queues = s.queues := by rw [store_only]
@[simp] theorem store_cmds (s : State) (a : Nat) (l : List Byte) : (s.store a l).cmds = s.cmds := by rw [store_only]
@[simp] theorem store_mreqs (s : State) (a : Nat) (l : List Byte) : (s.store a l).mreqs = s.mreqs := by rw [store_only]
@[simp] theorem store_rrobin (s : State) (a : Nat) (l : List Byte) : (s.store a l).rrobin = s.rrobin := by rw [store_only]
@[simp] theorem store_arrays (s : State) (a : Nat) (l : List Byte) : (s.store a l).arrays = s.arrays := by rw [store_only]
@[simp] theorem store_arrFail (s : State) (a : Nat) (l : List Byte) : (s.store a l).arrFail = s.arrFail := by rw [store_only]
@[simp] theorem store_hod (s : State) (a : Nat) (l : List Byte) : (s.store a l).hod = s.hod := by rw [store_only]
@[simp] theorem store_dyCache (s : State) (a : Nat) (l : List Byte) : (s.store a l).dyCache = s.dyCache := by rw [store_only]
@[simp] theorem store_loadw (s : State) (a : Nat) (l : List Byte) : (s.store a l).loadw = s.loadw := by rw [store_only]
@[simp] theorem store_images (s : State) (a : Nat) (l : List Byte) : (s.store a l).images = s.images := by rw [store_only]
@[simp] theorem store_lcache (s : State) (a : Nat) (l : List Byte) : (s.store a l).lcache = s.lcache := by rw [store_only]
@[simp] theorem store_lcacheAge (s : State) (a : Nat) (l : List Byte) : (s.store a l).lcacheAge = s.lcacheAge := by rw [store_only]
@[simp] theorem store_rbuf (s : State) (a : Nat) (l : List Byte) : (s.store a l).rbuf = s.rbuf := by rw [store_only]
@[simp] theorem store_mwait (s : State) (a : Nat) (l : List Byte) : (s.store a l).mwait = s.mwait := by rw [store_only]
@[simp] theorem store_staged (s : State) (a : Nat) (l : List Byte) : (s.store a l).staged = s.staged := by rw [store_only]
@[simp] theorem store_groups (s : State) (a : Nat) (l : List Byte) : (s.store a l).groups = s.groups := by rw [store_only]
@[simp] theorem store_tiles (s : State) (a : Nat) (l : List Byte) : (s.store a l).tiles = s.tiles := by rw [store_only]
@[simp] theorem store_frames (s : State) (a : Nat) (l : List Byte) : (s.store a l).frames = s.frames := by rw [store_only]
@[simp] theorem store_clock (s : State) (a : Nat) (l : List Byte) : (s.store a l).clock = s.clock := by rw [store_only]
@[simp] theorem store_preloads (s : State) (a : Nat) (l : List Byte) : (s.store a l).preloads = s.preloads := by rw [store_only]
@[simp] theorem store_diverts (s : State) (a : Nat) (l : List Byte) : (s.store a l).diverts = s.diverts := by rw [store_only]
@[simp] theorem store_folds (s : State) (a : Nat) (l : List Byte) : (s.store a l).folds = s.folds := by rw [store_only]
@[simp] theorem store_ledger (s : State) (a : Nat) (l : List Byte) : (s.store a l).ledger = s.ledger := by rw [store_only]
@[simp] theorem store_advisor (s : State) (a : Nat) (l : List Byte) : (s.store a l).advisor = s.advisor := by rw [store_only]
@[simp] theorem store_statsCom (s : State) (a : Nat) (l : List Byte) : (s.store a l).statsCom = s.statsCom := by rw [store_only]
@[simp] theorem store_statsSt (s : State) (a : Nat) (l : List Byte) : (s.store a l).statsSt = s.statsSt := by rw [store_only]
@[simp] theorem store_epoch (s : State) (a : Nat) (l : List Byte) : (s.store a l).epoch = s.epoch := by rw [store_only]
@[simp] theorem store_rxOpen (s : State) (a : Nat) (l : List Byte) : (s.store a l).rxOpen = s.rxOpen := by rw [store_only]
@[simp] theorem store_rxClosed (s : State) (a : Nat) (l : List Byte) : (s.store a l).rxClosed = s.rxClosed := by rw [store_only]
@[simp] theorem store_txq (s : State) (a : Nat) (l : List Byte) : (s.store a l).txq = s.txq := by rw [store_only]
@[simp] theorem store_txAwait (s : State) (a : Nat) (l : List Byte) : (s.store a l).txAwait = s.txAwait := by rw [store_only]
@[simp] theorem store_txState (s : State) (a : Nat) (l : List Byte) : (s.store a l).txState = s.txState := by rw [store_only]
@[simp] theorem store_frs (s : State) (a : Nat) (l : List Byte) : (s.store a l).frs = s.frs := by rw [store_only]
@[simp] theorem store_handoffs (s : State) (a : Nat) (l : List Byte) : (s.store a l).handoffs = s.handoffs := by rw [store_only]
@[simp] theorem store_snap (s : State) (a : Nat) (l : List Byte) : (s.store a l).snap = s.snap := by rw [store_only]
@[simp] theorem store_power (s : State) (a : Nat) (l : List Byte) : (s.store a l).power = s.power := by rw [store_only]
@[simp] theorem store_ras (s : State) (a : Nat) (l : List Byte) : (s.store a l).ras = s.ras := by rw [store_only]
@[simp] theorem store_tb (s : State) (a : Nat) (l : List Byte) : (s.store a l).tb = s.tb := by rw [store_only]
@[simp] theorem store_trace (s : State) (a : Nat) (l : List Byte) : (s.store a l).trace = s.trace := by rw [store_only]
@[simp] theorem store_cport (s : State) (a : Nat) (l : List Byte) : (s.store a l).cport = s.cport := by rw [store_only]
@[simp] theorem store_regData (s : State) (a : Nat) (l : List Byte) : (s.store a l).regData = s.regData := by rw [store_only]
@[simp] theorem store_regErr (s : State) (a : Nat) (l : List Byte) : (s.store a l).regErr = s.regErr := by rw [store_only]
@[simp] theorem store_bist (s : State) (a : Nat) (l : List Byte) : (s.store a l).bist = s.bist := by rw [store_only]
@[simp] theorem store_test (s : State) (a : Nat) (l : List Byte) : (s.store a l).test = s.test := by rw [store_only]
@[simp] theorem store_rstLow (s : State) (a : Nat) (l : List Byte) : (s.store a l).rstLow = s.rstLow := by rw [store_only]
@[simp] theorem store_wrstLow (s : State) (a : Nat) (l : List Byte) : (s.store a l).wrstLow = s.wrstLow := by rw [store_only]
@[simp] theorem store_quiet (s : State) (a : Nat) (l : List Byte) : (s.store a l).quiet = s.quiet := by rw [store_only]
@[simp] theorem store_free (s : State) (a : Nat) (l : List Byte) : (s.store a l).free = s.free := by rw [store_only]

/-! ### irqRises -/

@[simp] theorem irqRises_pending (s t : State) : (irqRises s t).pending = t.pending := by rw [irqRises_only]
@[simp] theorem irqRises_mem (s t : State) : (irqRises s t).mem = t.mem := by rw [irqRises_only]
@[simp] theorem irqRises_wbuf (s t : State) : (irqRises s t).wbuf = t.wbuf := by rw [irqRises_only]
@[simp] theorem irqRises_cfg (s t : State) : (irqRises s t).cfg = t.cfg := by rw [irqRises_only]
@[simp] theorem irqRises_sts (s t : State) : (irqRises s t).sts = t.sts := by rw [irqRises_only]
@[simp] theorem irqRises_queues (s t : State) : (irqRises s t).queues = t.queues := by rw [irqRises_only]
@[simp] theorem irqRises_cmds (s t : State) : (irqRises s t).cmds = t.cmds := by rw [irqRises_only]
@[simp] theorem irqRises_mreqs (s t : State) : (irqRises s t).mreqs = t.mreqs := by rw [irqRises_only]
@[simp] theorem irqRises_rrobin (s t : State) : (irqRises s t).rrobin = t.rrobin := by rw [irqRises_only]
@[simp] theorem irqRises_arrays (s t : State) : (irqRises s t).arrays = t.arrays := by rw [irqRises_only]
@[simp] theorem irqRises_arrFail (s t : State) : (irqRises s t).arrFail = t.arrFail := by rw [irqRises_only]
@[simp] theorem irqRises_hod (s t : State) : (irqRises s t).hod = t.hod := by rw [irqRises_only]
@[simp] theorem irqRises_dyCache (s t : State) : (irqRises s t).dyCache = t.dyCache := by rw [irqRises_only]
@[simp] theorem irqRises_loadw (s t : State) : (irqRises s t).loadw = t.loadw := by rw [irqRises_only]
@[simp] theorem irqRises_images (s t : State) : (irqRises s t).images = t.images := by rw [irqRises_only]
@[simp] theorem irqRises_lcache (s t : State) : (irqRises s t).lcache = t.lcache := by rw [irqRises_only]
@[simp] theorem irqRises_lcacheAge (s t : State) : (irqRises s t).lcacheAge = t.lcacheAge := by rw [irqRises_only]
@[simp] theorem irqRises_rbuf (s t : State) : (irqRises s t).rbuf = t.rbuf := by rw [irqRises_only]
@[simp] theorem irqRises_mwait (s t : State) : (irqRises s t).mwait = t.mwait := by rw [irqRises_only]
@[simp] theorem irqRises_staged (s t : State) : (irqRises s t).staged = t.staged := by rw [irqRises_only]
@[simp] theorem irqRises_groups (s t : State) : (irqRises s t).groups = t.groups := by rw [irqRises_only]
@[simp] theorem irqRises_tiles (s t : State) : (irqRises s t).tiles = t.tiles := by rw [irqRises_only]
@[simp] theorem irqRises_frames (s t : State) : (irqRises s t).frames = t.frames := by rw [irqRises_only]
@[simp] theorem irqRises_clock (s t : State) : (irqRises s t).clock = t.clock := by rw [irqRises_only]
@[simp] theorem irqRises_preloads (s t : State) : (irqRises s t).preloads = t.preloads := by rw [irqRises_only]
@[simp] theorem irqRises_diverts (s t : State) : (irqRises s t).diverts = t.diverts := by rw [irqRises_only]
@[simp] theorem irqRises_folds (s t : State) : (irqRises s t).folds = t.folds := by rw [irqRises_only]
@[simp] theorem irqRises_ledger (s t : State) : (irqRises s t).ledger = t.ledger := by rw [irqRises_only]
@[simp] theorem irqRises_advisor (s t : State) : (irqRises s t).advisor = t.advisor := by rw [irqRises_only]
@[simp] theorem irqRises_statsCom (s t : State) : (irqRises s t).statsCom = t.statsCom := by rw [irqRises_only]
@[simp] theorem irqRises_statsSt (s t : State) : (irqRises s t).statsSt = t.statsSt := by rw [irqRises_only]
@[simp] theorem irqRises_epoch (s t : State) : (irqRises s t).epoch = t.epoch := by rw [irqRises_only]
@[simp] theorem irqRises_rxOpen (s t : State) : (irqRises s t).rxOpen = t.rxOpen := by rw [irqRises_only]
@[simp] theorem irqRises_rxClosed (s t : State) : (irqRises s t).rxClosed = t.rxClosed := by rw [irqRises_only]
@[simp] theorem irqRises_txq (s t : State) : (irqRises s t).txq = t.txq := by rw [irqRises_only]
@[simp] theorem irqRises_txAwait (s t : State) : (irqRises s t).txAwait = t.txAwait := by rw [irqRises_only]
@[simp] theorem irqRises_txState (s t : State) : (irqRises s t).txState = t.txState := by rw [irqRises_only]
@[simp] theorem irqRises_frs (s t : State) : (irqRises s t).frs = t.frs := by rw [irqRises_only]
@[simp] theorem irqRises_handoffs (s t : State) : (irqRises s t).handoffs = t.handoffs := by rw [irqRises_only]
@[simp] theorem irqRises_snap (s t : State) : (irqRises s t).snap = t.snap := by rw [irqRises_only]
@[simp] theorem irqRises_power (s t : State) : (irqRises s t).power = t.power := by rw [irqRises_only]
@[simp] theorem irqRises_ras (s t : State) : (irqRises s t).ras = t.ras := by rw [irqRises_only]
@[simp] theorem irqRises_tb (s t : State) : (irqRises s t).tb = t.tb := by rw [irqRises_only]
@[simp] theorem irqRises_trace (s t : State) : (irqRises s t).trace = t.trace := by rw [irqRises_only]
@[simp] theorem irqRises_regData (s t : State) : (irqRises s t).regData = t.regData := by rw [irqRises_only]
@[simp] theorem irqRises_regErr (s t : State) : (irqRises s t).regErr = t.regErr := by rw [irqRises_only]
@[simp] theorem irqRises_bist (s t : State) : (irqRises s t).bist = t.bist := by rw [irqRises_only]
@[simp] theorem irqRises_test (s t : State) : (irqRises s t).test = t.test := by rw [irqRises_only]
@[simp] theorem irqRises_rstLow (s t : State) : (irqRises s t).rstLow = t.rstLow := by rw [irqRises_only]
@[simp] theorem irqRises_wrstLow (s t : State) : (irqRises s t).wrstLow = t.wrstLow := by rw [irqRises_only]
@[simp] theorem irqRises_quiet (s t : State) : (irqRises s t).quiet = t.quiet := by rw [irqRises_only]
@[simp] theorem irqRises_free (s t : State) : (irqRises s t).free = t.free := by rw [irqRises_only]

/-! ### awaitWrites -/

@[simp] theorem awaitWrites_pending (s : State) (k c : Nat) : (awaitWrites s k c).pending = s.pending := by rw [awaitWrites_only]
@[simp] theorem awaitWrites_mem (s : State) (k c : Nat) : (awaitWrites s k c).mem = s.mem := by rw [awaitWrites_only]
@[simp] theorem awaitWrites_wbuf (s : State) (k c : Nat) : (awaitWrites s k c).wbuf = s.wbuf := by rw [awaitWrites_only]
@[simp] theorem awaitWrites_cfg (s : State) (k c : Nat) : (awaitWrites s k c).cfg = s.cfg := by rw [awaitWrites_only]
@[simp] theorem awaitWrites_sts (s : State) (k c : Nat) : (awaitWrites s k c).sts = s.sts := by rw [awaitWrites_only]
@[simp] theorem awaitWrites_queues (s : State) (k c : Nat) : (awaitWrites s k c).queues = s.queues := by rw [awaitWrites_only]
@[simp] theorem awaitWrites_cmds (s : State) (k c : Nat) : (awaitWrites s k c).cmds = s.cmds := by rw [awaitWrites_only]
@[simp] theorem awaitWrites_rrobin (s : State) (k c : Nat) : (awaitWrites s k c).rrobin = s.rrobin := by rw [awaitWrites_only]
@[simp] theorem awaitWrites_arrays (s : State) (k c : Nat) : (awaitWrites s k c).arrays = s.arrays := by rw [awaitWrites_only]
@[simp] theorem awaitWrites_arrFail (s : State) (k c : Nat) : (awaitWrites s k c).arrFail = s.arrFail := by rw [awaitWrites_only]
@[simp] theorem awaitWrites_hod (s : State) (k c : Nat) : (awaitWrites s k c).hod = s.hod := by rw [awaitWrites_only]
@[simp] theorem awaitWrites_dyCache (s : State) (k c : Nat) : (awaitWrites s k c).dyCache = s.dyCache := by rw [awaitWrites_only]
@[simp] theorem awaitWrites_loadw (s : State) (k c : Nat) : (awaitWrites s k c).loadw = s.loadw := by rw [awaitWrites_only]
@[simp] theorem awaitWrites_images (s : State) (k c : Nat) : (awaitWrites s k c).images = s.images := by rw [awaitWrites_only]
@[simp] theorem awaitWrites_lcache (s : State) (k c : Nat) : (awaitWrites s k c).lcache = s.lcache := by rw [awaitWrites_only]
@[simp] theorem awaitWrites_lcacheAge (s : State) (k c : Nat) : (awaitWrites s k c).lcacheAge = s.lcacheAge := by rw [awaitWrites_only]
@[simp] theorem awaitWrites_rbuf (s : State) (k c : Nat) : (awaitWrites s k c).rbuf = s.rbuf := by rw [awaitWrites_only]
@[simp] theorem awaitWrites_staged (s : State) (k c : Nat) : (awaitWrites s k c).staged = s.staged := by rw [awaitWrites_only]
@[simp] theorem awaitWrites_groups (s : State) (k c : Nat) : (awaitWrites s k c).groups = s.groups := by rw [awaitWrites_only]
@[simp] theorem awaitWrites_tiles (s : State) (k c : Nat) : (awaitWrites s k c).tiles = s.tiles := by rw [awaitWrites_only]
@[simp] theorem awaitWrites_frames (s : State) (k c : Nat) : (awaitWrites s k c).frames = s.frames := by rw [awaitWrites_only]
@[simp] theorem awaitWrites_clock (s : State) (k c : Nat) : (awaitWrites s k c).clock = s.clock := by rw [awaitWrites_only]
@[simp] theorem awaitWrites_preloads (s : State) (k c : Nat) : (awaitWrites s k c).preloads = s.preloads := by rw [awaitWrites_only]
@[simp] theorem awaitWrites_diverts (s : State) (k c : Nat) : (awaitWrites s k c).diverts = s.diverts := by rw [awaitWrites_only]
@[simp] theorem awaitWrites_folds (s : State) (k c : Nat) : (awaitWrites s k c).folds = s.folds := by rw [awaitWrites_only]
@[simp] theorem awaitWrites_ledger (s : State) (k c : Nat) : (awaitWrites s k c).ledger = s.ledger := by rw [awaitWrites_only]
@[simp] theorem awaitWrites_advisor (s : State) (k c : Nat) : (awaitWrites s k c).advisor = s.advisor := by rw [awaitWrites_only]
@[simp] theorem awaitWrites_statsCom (s : State) (k c : Nat) : (awaitWrites s k c).statsCom = s.statsCom := by rw [awaitWrites_only]
@[simp] theorem awaitWrites_statsSt (s : State) (k c : Nat) : (awaitWrites s k c).statsSt = s.statsSt := by rw [awaitWrites_only]
@[simp] theorem awaitWrites_epoch (s : State) (k c : Nat) : (awaitWrites s k c).epoch = s.epoch := by rw [awaitWrites_only]
@[simp] theorem awaitWrites_rxOpen (s : State) (k c : Nat) : (awaitWrites s k c).rxOpen = s.rxOpen := by rw [awaitWrites_only]
@[simp] theorem awaitWrites_rxClosed (s : State) (k c : Nat) : (awaitWrites s k c).rxClosed = s.rxClosed := by rw [awaitWrites_only]
@[simp] theorem awaitWrites_txq (s : State) (k c : Nat) : (awaitWrites s k c).txq = s.txq := by rw [awaitWrites_only]
@[simp] theorem awaitWrites_txAwait (s : State) (k c : Nat) : (awaitWrites s k c).txAwait = s.txAwait := by rw [awaitWrites_only]
@[simp] theorem awaitWrites_txState (s : State) (k c : Nat) : (awaitWrites s k c).txState = s.txState := by rw [awaitWrites_only]
@[simp] theorem awaitWrites_frs (s : State) (k c : Nat) : (awaitWrites s k c).frs = s.frs := by rw [awaitWrites_only]
@[simp] theorem awaitWrites_handoffs (s : State) (k c : Nat) : (awaitWrites s k c).handoffs = s.handoffs := by rw [awaitWrites_only]
@[simp] theorem awaitWrites_snap (s : State) (k c : Nat) : (awaitWrites s k c).snap = s.snap := by rw [awaitWrites_only]
@[simp] theorem awaitWrites_power (s : State) (k c : Nat) : (awaitWrites s k c).power = s.power := by rw [awaitWrites_only]
@[simp] theorem awaitWrites_ras (s : State) (k c : Nat) : (awaitWrites s k c).ras = s.ras := by rw [awaitWrites_only]
@[simp] theorem awaitWrites_tb (s : State) (k c : Nat) : (awaitWrites s k c).tb = s.tb := by rw [awaitWrites_only]
@[simp] theorem awaitWrites_trace (s : State) (k c : Nat) : (awaitWrites s k c).trace = s.trace := by rw [awaitWrites_only]
@[simp] theorem awaitWrites_cport (s : State) (k c : Nat) : (awaitWrites s k c).cport = s.cport := by rw [awaitWrites_only]
@[simp] theorem awaitWrites_regData (s : State) (k c : Nat) : (awaitWrites s k c).regData = s.regData := by rw [awaitWrites_only]
@[simp] theorem awaitWrites_regErr (s : State) (k c : Nat) : (awaitWrites s k c).regErr = s.regErr := by rw [awaitWrites_only]
@[simp] theorem awaitWrites_bist (s : State) (k c : Nat) : (awaitWrites s k c).bist = s.bist := by rw [awaitWrites_only]
@[simp] theorem awaitWrites_test (s : State) (k c : Nat) : (awaitWrites s k c).test = s.test := by rw [awaitWrites_only]
@[simp] theorem awaitWrites_rstLow (s : State) (k c : Nat) : (awaitWrites s k c).rstLow = s.rstLow := by rw [awaitWrites_only]
@[simp] theorem awaitWrites_wrstLow (s : State) (k c : Nat) : (awaitWrites s k c).wrstLow = s.wrstLow := by rw [awaitWrites_only]
@[simp] theorem awaitWrites_quiet (s : State) (k c : Nat) : (awaitWrites s k c).quiet = s.quiet := by rw [awaitWrites_only]
@[simp] theorem awaitWrites_free (s : State) (k c : Nat) : (awaitWrites s k c).free = s.free := by rw [awaitWrites_only]

/-! ### noteBegin -/

@[simp] theorem noteBegin_pending (s : State) (c : Cmd) : (noteBegin s c).pending = s.pending := by rw [noteBegin_only]
@[simp] theorem noteBegin_mem (s : State) (c : Cmd) : (noteBegin s c).mem = s.mem := by rw [noteBegin_only]
@[simp] theorem noteBegin_wbuf (s : State) (c : Cmd) : (noteBegin s c).wbuf = s.wbuf := by rw [noteBegin_only]
@[simp] theorem noteBegin_cfg (s : State) (c : Cmd) : (noteBegin s c).cfg = s.cfg := by rw [noteBegin_only]
@[simp] theorem noteBegin_queues (s : State) (c : Cmd) : (noteBegin s c).queues = s.queues := by rw [noteBegin_only]
@[simp] theorem noteBegin_cmds (s : State) (c : Cmd) : (noteBegin s c).cmds = s.cmds := by rw [noteBegin_only]
@[simp] theorem noteBegin_mreqs (s : State) (c : Cmd) : (noteBegin s c).mreqs = s.mreqs := by rw [noteBegin_only]
@[simp] theorem noteBegin_rrobin (s : State) (c : Cmd) : (noteBegin s c).rrobin = s.rrobin := by rw [noteBegin_only]
@[simp] theorem noteBegin_arrays (s : State) (c : Cmd) : (noteBegin s c).arrays = s.arrays := by rw [noteBegin_only]
@[simp] theorem noteBegin_arrFail (s : State) (c : Cmd) : (noteBegin s c).arrFail = s.arrFail := by rw [noteBegin_only]
@[simp] theorem noteBegin_hod (s : State) (c : Cmd) : (noteBegin s c).hod = s.hod := by rw [noteBegin_only]
@[simp] theorem noteBegin_dyCache (s : State) (c : Cmd) : (noteBegin s c).dyCache = s.dyCache := by rw [noteBegin_only]
@[simp] theorem noteBegin_loadw (s : State) (c : Cmd) : (noteBegin s c).loadw = s.loadw := by rw [noteBegin_only]
@[simp] theorem noteBegin_images (s : State) (c : Cmd) : (noteBegin s c).images = s.images := by rw [noteBegin_only]
@[simp] theorem noteBegin_lcache (s : State) (c : Cmd) : (noteBegin s c).lcache = s.lcache := by rw [noteBegin_only]
@[simp] theorem noteBegin_lcacheAge (s : State) (c : Cmd) : (noteBegin s c).lcacheAge = s.lcacheAge := by rw [noteBegin_only]
@[simp] theorem noteBegin_rbuf (s : State) (c : Cmd) : (noteBegin s c).rbuf = s.rbuf := by rw [noteBegin_only]
@[simp] theorem noteBegin_mwait (s : State) (c : Cmd) : (noteBegin s c).mwait = s.mwait := by rw [noteBegin_only]
@[simp] theorem noteBegin_staged (s : State) (c : Cmd) : (noteBegin s c).staged = s.staged := by rw [noteBegin_only]
@[simp] theorem noteBegin_groups (s : State) (c : Cmd) : (noteBegin s c).groups = s.groups := by rw [noteBegin_only]
@[simp] theorem noteBegin_tiles (s : State) (c : Cmd) : (noteBegin s c).tiles = s.tiles := by rw [noteBegin_only]
@[simp] theorem noteBegin_frames (s : State) (c : Cmd) : (noteBegin s c).frames = s.frames := by rw [noteBegin_only]
@[simp] theorem noteBegin_clock (s : State) (c : Cmd) : (noteBegin s c).clock = s.clock := by rw [noteBegin_only]
@[simp] theorem noteBegin_preloads (s : State) (c : Cmd) : (noteBegin s c).preloads = s.preloads := by rw [noteBegin_only]
@[simp] theorem noteBegin_diverts (s : State) (c : Cmd) : (noteBegin s c).diverts = s.diverts := by rw [noteBegin_only]
@[simp] theorem noteBegin_folds (s : State) (c : Cmd) : (noteBegin s c).folds = s.folds := by rw [noteBegin_only]
@[simp] theorem noteBegin_ledger (s : State) (c : Cmd) : (noteBegin s c).ledger = s.ledger := by rw [noteBegin_only]
@[simp] theorem noteBegin_advisor (s : State) (c : Cmd) : (noteBegin s c).advisor = s.advisor := by rw [noteBegin_only]
@[simp] theorem noteBegin_statsCom (s : State) (c : Cmd) : (noteBegin s c).statsCom = s.statsCom := by rw [noteBegin_only]
@[simp] theorem noteBegin_statsSt (s : State) (c : Cmd) : (noteBegin s c).statsSt = s.statsSt := by rw [noteBegin_only]
@[simp] theorem noteBegin_epoch (s : State) (c : Cmd) : (noteBegin s c).epoch = s.epoch := by rw [noteBegin_only]
@[simp] theorem noteBegin_rxOpen (s : State) (c : Cmd) : (noteBegin s c).rxOpen = s.rxOpen := by rw [noteBegin_only]
@[simp] theorem noteBegin_rxClosed (s : State) (c : Cmd) : (noteBegin s c).rxClosed = s.rxClosed := by rw [noteBegin_only]
@[simp] theorem noteBegin_txq (s : State) (c : Cmd) : (noteBegin s c).txq = s.txq := by rw [noteBegin_only]
@[simp] theorem noteBegin_txAwait (s : State) (c : Cmd) : (noteBegin s c).txAwait = s.txAwait := by rw [noteBegin_only]
@[simp] theorem noteBegin_txState (s : State) (c : Cmd) : (noteBegin s c).txState = s.txState := by rw [noteBegin_only]
@[simp] theorem noteBegin_frs (s : State) (c : Cmd) : (noteBegin s c).frs = s.frs := by rw [noteBegin_only]
@[simp] theorem noteBegin_handoffs (s : State) (c : Cmd) : (noteBegin s c).handoffs = s.handoffs := by rw [noteBegin_only]
@[simp] theorem noteBegin_snap (s : State) (c : Cmd) : (noteBegin s c).snap = s.snap := by rw [noteBegin_only]
@[simp] theorem noteBegin_power (s : State) (c : Cmd) : (noteBegin s c).power = s.power := by rw [noteBegin_only]
@[simp] theorem noteBegin_ras (s : State) (c : Cmd) : (noteBegin s c).ras = s.ras := by rw [noteBegin_only]
@[simp] theorem noteBegin_tb (s : State) (c : Cmd) : (noteBegin s c).tb = s.tb := by rw [noteBegin_only]
@[simp] theorem noteBegin_cport (s : State) (c : Cmd) : (noteBegin s c).cport = s.cport := by rw [noteBegin_only]
@[simp] theorem noteBegin_regData (s : State) (c : Cmd) : (noteBegin s c).regData = s.regData := by rw [noteBegin_only]
@[simp] theorem noteBegin_regErr (s : State) (c : Cmd) : (noteBegin s c).regErr = s.regErr := by rw [noteBegin_only]
@[simp] theorem noteBegin_bist (s : State) (c : Cmd) : (noteBegin s c).bist = s.bist := by rw [noteBegin_only]
@[simp] theorem noteBegin_test (s : State) (c : Cmd) : (noteBegin s c).test = s.test := by rw [noteBegin_only]
@[simp] theorem noteBegin_rstLow (s : State) (c : Cmd) : (noteBegin s c).rstLow = s.rstLow := by rw [noteBegin_only]
@[simp] theorem noteBegin_wrstLow (s : State) (c : Cmd) : (noteBegin s c).wrstLow = s.wrstLow := by rw [noteBegin_only]
@[simp] theorem noteBegin_quiet (s : State) (c : Cmd) : (noteBegin s c).quiet = s.quiet := by rw [noteBegin_only]
@[simp] theorem noteBegin_free (s : State) (c : Cmd) : (noteBegin s c).free = s.free := by rw [noteBegin_only]

/-! ### settle -/

@[simp] theorem settle_cfg (s t : State) : (settle s t).cfg = t.cfg := by rw [settle_only]
@[simp] theorem settle_sts (s t : State) : (settle s t).sts = t.sts := by rw [settle_only]
@[simp] theorem settle_queues (s t : State) : (settle s t).queues = t.queues := by rw [settle_only]
@[simp] theorem settle_cmds (s t : State) : (settle s t).cmds = t.cmds := by rw [settle_only]
@[simp] theorem settle_mreqs (s t : State) : (settle s t).mreqs = t.mreqs := by rw [settle_only]
@[simp] theorem settle_rrobin (s t : State) : (settle s t).rrobin = t.rrobin := by rw [settle_only]
@[simp] theorem settle_arrays (s t : State) : (settle s t).arrays = t.arrays := by rw [settle_only]
@[simp] theorem settle_arrFail (s t : State) : (settle s t).arrFail = t.arrFail := by rw [settle_only]
@[simp] theorem settle_hod (s t : State) : (settle s t).hod = t.hod := by rw [settle_only]
@[simp] theorem settle_dyCache (s t : State) : (settle s t).dyCache = t.dyCache := by rw [settle_only]
@[simp] theorem settle_loadw (s t : State) : (settle s t).loadw = t.loadw := by rw [settle_only]
@[simp] theorem settle_images (s t : State) : (settle s t).images = t.images := by rw [settle_only]
@[simp] theorem settle_lcache (s t : State) : (settle s t).lcache = t.lcache := by rw [settle_only]
@[simp] theorem settle_lcacheAge (s t : State) : (settle s t).lcacheAge = t.lcacheAge := by rw [settle_only]
@[simp] theorem settle_mwait (s t : State) : (settle s t).mwait = t.mwait := by rw [settle_only]
@[simp] theorem settle_staged (s t : State) : (settle s t).staged = t.staged := by rw [settle_only]
@[simp] theorem settle_groups (s t : State) : (settle s t).groups = t.groups := by rw [settle_only]
@[simp] theorem settle_tiles (s t : State) : (settle s t).tiles = t.tiles := by rw [settle_only]
@[simp] theorem settle_frames (s t : State) : (settle s t).frames = t.frames := by rw [settle_only]
@[simp] theorem settle_clock (s t : State) : (settle s t).clock = t.clock := by rw [settle_only]
@[simp] theorem settle_preloads (s t : State) : (settle s t).preloads = t.preloads := by rw [settle_only]
@[simp] theorem settle_diverts (s t : State) : (settle s t).diverts = t.diverts := by rw [settle_only]
@[simp] theorem settle_folds (s t : State) : (settle s t).folds = t.folds := by rw [settle_only]
@[simp] theorem settle_ledger (s t : State) : (settle s t).ledger = t.ledger := by rw [settle_only]
@[simp] theorem settle_advisor (s t : State) : (settle s t).advisor = t.advisor := by rw [settle_only]
@[simp] theorem settle_statsCom (s t : State) : (settle s t).statsCom = t.statsCom := by rw [settle_only]
@[simp] theorem settle_statsSt (s t : State) : (settle s t).statsSt = t.statsSt := by rw [settle_only]
@[simp] theorem settle_epoch (s t : State) : (settle s t).epoch = t.epoch := by rw [settle_only]
@[simp] theorem settle_rxOpen (s t : State) : (settle s t).rxOpen = t.rxOpen := by rw [settle_only]
@[simp] theorem settle_rxClosed (s t : State) : (settle s t).rxClosed = t.rxClosed := by rw [settle_only]
@[simp] theorem settle_txq (s t : State) : (settle s t).txq = t.txq := by rw [settle_only]
@[simp] theorem settle_txAwait (s t : State) : (settle s t).txAwait = t.txAwait := by rw [settle_only]
@[simp] theorem settle_txState (s t : State) : (settle s t).txState = t.txState := by rw [settle_only]
@[simp] theorem settle_frs (s t : State) : (settle s t).frs = t.frs := by rw [settle_only]
@[simp] theorem settle_handoffs (s t : State) : (settle s t).handoffs = t.handoffs := by rw [settle_only]
@[simp] theorem settle_snap (s t : State) : (settle s t).snap = t.snap := by rw [settle_only]
@[simp] theorem settle_power (s t : State) : (settle s t).power = t.power := by rw [settle_only]
@[simp] theorem settle_ras (s t : State) : (settle s t).ras = t.ras := by rw [settle_only]
@[simp] theorem settle_tb (s t : State) : (settle s t).tb = t.tb := by rw [settle_only]
@[simp] theorem settle_trace (s t : State) : (settle s t).trace = t.trace := by rw [settle_only]
@[simp] theorem settle_regData (s t : State) : (settle s t).regData = t.regData := by rw [settle_only]
@[simp] theorem settle_regErr (s t : State) : (settle s t).regErr = t.regErr := by rw [settle_only]
@[simp] theorem settle_bist (s t : State) : (settle s t).bist = t.bist := by rw [settle_only]
@[simp] theorem settle_test (s t : State) : (settle s t).test = t.test := by rw [settle_only]
@[simp] theorem settle_rstLow (s t : State) : (settle s t).rstLow = t.rstLow := by rw [settle_only]
@[simp] theorem settle_wrstLow (s t : State) : (settle s t).wrstLow = t.wrstLow := by rw [settle_only]
@[simp] theorem settle_quiet (s t : State) : (settle s t).quiet = t.quiet := by rw [settle_only]
@[simp] theorem settle_free (s t : State) : (settle s t).free = t.free := by rw [settle_only]

end Sys2Proof.Machine
end

