-- ==== Sys2Proof/Laws/Table.lean ====
section
/-! SUPPORT. The laws of ordered tables and of memory: reading what was written, every other place unchanged, the canonical form
kept by every operation. -/

namespace Sys2Proof.Machine

variable {α : Type}

/-- Every key of a table is above `k`. -/
def KeysAbove (k : Nat) (l : List (Nat × α)) : Prop := ∀ p ∈ l, k < p.1

/-- The canonical form, said of the first entry and the rest. -/
theorem tableWf_cons [DecidableEq α] {d : α} {k : Nat} {v : α} {l : List (Nat × α)} :
    tableWf d ((k, v) :: l) = true ↔ v ≠ d ∧ KeysAbove k l ∧ tableWf d l = true := by
  induction l generalizing k v with
  | nil => simp [tableWf, KeysAbove]
  | cons p r ih =>
    obtain ⟨k', v'⟩ := p
    simp only [tableWf, Bool.and_eq_true, bne_iff_ne, ne_eq, decide_eq_true_eq, KeysAbove, List.mem_cons, forall_eq_or_imp]
    constructor
    · rintro ⟨⟨h1, h2⟩, h3⟩
      have h := (ih.mp h3).2.1
      exact ⟨h1, ⟨h2, fun p hp => Nat.lt_trans h2 (h p hp)⟩, h3⟩
    · rintro ⟨h1, ⟨h2, _⟩, h3⟩
      exact ⟨⟨h1, h2⟩, h3⟩

theorem tget_above {d : α} {l : List (Nat × α)} {k : Nat} (h : KeysAbove k l) : tget d l k = d := by
  induction l with
  | nil => rfl
  | cons p r ih =>
    have := h p List.mem_cons_self
    simp only [tget]
    rw [if_neg (by omega), ih (fun q hq => h q (List.mem_cons_of_mem _ hq))]

theorem tdel_mem {l : List (Nat × α)} {k : Nat} {p : Nat × α} (h : p ∈ tdel l k) : p ∈ l := by
  induction l with
  | nil => exact h
  | cons q r ih =>
    simp only [tdel] at h
    split at h
    · exact List.mem_cons_of_mem _ (ih h)
    · rcases List.mem_cons.mp h with rfl | h
      · exact List.mem_cons_self
      · exact List.mem_cons_of_mem _ (ih h)

theorem tins_mem {l : List (Nat × α)} {k : Nat} {v : α} {p : Nat × α} (h : p ∈ tins l k v) : p = (k, v) ∨ p ∈ l := by
  induction l with
  | nil => left; simpa [tins] using h
  | cons q r ih =>
    simp only [tins] at h
    split at h
    · rcases List.mem_cons.mp h with h | h
      · exact .inl h
      · exact .inr (List.mem_cons_of_mem _ h)
    · split at h
      · rcases List.mem_cons.mp h with h | h
        · exact .inl h
        · exact .inr h
      · rcases List.mem_cons.mp h with rfl | h
        · exact .inr List.mem_cons_self
        · rcases ih h with h | h
          · exact .inl h
          · exact .inr (List.mem_cons_of_mem _ h)

theorem tableWf_tdel [DecidableEq α] {d : α} {l : List (Nat × α)} (k : Nat) (h : tableWf d l = true) :
    tableWf d (tdel l k) = true := by
  induction l with
  | nil => exact h
  | cons p r ih =>
    obtain ⟨k', v⟩ := p
    have ⟨h1, h2, h3⟩ := tableWf_cons.mp h
    simp only [tdel]
    split
    · exact ih h3
    · exact tableWf_cons.mpr ⟨h1, fun p hp => h2 p (tdel_mem hp), ih h3⟩

theorem tableWf_tins [DecidableEq α] {d : α} {l : List (Nat × α)} (k : Nat) {v : α} (hv : v ≠ d) (h : tableWf d l = true) :
    tableWf d (tins l k v) = true := by
  induction l with
  | nil => simpa [tins, tableWf] using hv
  | cons p r ih =>
    obtain ⟨k', v'⟩ := p
    have ⟨h1, h2, h3⟩ := tableWf_cons.mp h
    simp only [tins]
    split
    · next e => exact tableWf_cons.mpr ⟨hv, e ▸ h2, h3⟩
    · next e =>
      split
      · next lt =>
        refine tableWf_cons.mpr ⟨hv, ?_, h⟩
        intro p hp
        rcases List.mem_cons.mp hp with rfl | hp
        · exact lt
        · exact Nat.lt_trans lt (h2 p hp)
      · next nlt =>
        refine tableWf_cons.mpr ⟨h1, ?_, ih h3⟩
        intro p hp
        rcases tins_mem hp with rfl | hp
        · change k' < k; omega
        · exact h2 p hp

/-- A write keeps the canonical form. -/
theorem tableWf_tput [DecidableEq α] {d : α} {l : List (Nat × α)} (k : Nat) (v : α) (h : tableWf d l = true) :
    tableWf d (tput d l k v) = true := by
  unfold tput
  split
  · exact tableWf_tdel k h
  · next hv => exact tableWf_tins k hv h

@[simp] theorem tget_tins_self {d : α} (l : List (Nat × α)) (k : Nat) (v : α) : tget d (tins l k v) k = v := by
  induction l with
  | nil => simp [tins, tget]
  | cons p r ih =>
    simp only [tins]
    split
    · simp [tget]
    · split
      · simp [tget]
      · next a b => simp only [tget]; rw [if_neg a, ih]

theorem tget_tins_ne {d : α} (l : List (Nat × α)) {k j : Nat} (v : α) (h : j ≠ k) : tget d (tins l k v) j = tget d l j := by
  induction l with
  | nil => simp only [tins, tget]; rw [if_neg (Ne.symm h)]
  | cons p r ih =>
    simp only [tins]
    split
    · next e => subst e; simp only [tget]; rw [if_neg (Ne.symm h), if_neg (Ne.symm h)]
    · split
      · simp only [tget]; rw [if_neg (Ne.symm h)]
      · simp only [tget]; rw [ih]

@[simp] theorem tget_tdel_self {d : α} (l : List (Nat × α)) (k : Nat) : tget d (tdel l k) k = d := by
  induction l with
  | nil => rfl
  | cons p r ih =>
    simp only [tdel]
    split
    · exact ih
    · next a => simp only [tget]; rw [if_neg a, ih]

theorem tget_tdel_ne {d : α} (l : List (Nat × α)) {k j : Nat} (h : j ≠ k) : tget d (tdel l k) j = tget d l j := by
  induction l with
  | nil => rfl
  | cons p r ih =>
    simp only [tdel]
    split
    · next e => subst e; simp only [tget]; rw [if_neg (Ne.symm h), ih]
    · simp only [tget]; rw [ih]

/-- A read of the key written gives the value written. -/
@[simp] theorem tget_tput_self [DecidableEq α] {d : α} (l : List (Nat × α)) (k : Nat) (v : α) : tget d (tput d l k v) k = v := by
  unfold tput
  split
  · next e => rw [e]; exact tget_tdel_self l k
  · exact tget_tins_self l k v

/-- A write leaves every other key. -/
theorem tget_tput_ne [DecidableEq α] {d : α} (l : List (Nat × α)) {k j : Nat} (v : α) (h : j ≠ k) :
    tget d (tput d l k v) j = tget d l j := by
  unfold tput
  split
  · exact tget_tdel_ne l h
  · exact tget_tins_ne l v h

/-- Two canonical tables that read alike everywhere are equal. -/
theorem table_ext [DecidableEq α] {d : α} {l m : List (Nat × α)} (hl : tableWf d l = true) (hm : tableWf d m = true)
    (h : ∀ k, tget d l k = tget d m k) : l = m := by
  induction l generalizing m with
  | nil =>
    cases m with
    | nil => rfl
    | cons p r =>
      obtain ⟨k, v⟩ := p
      have := h k
      simp [tget] at this
      exact absurd this.symm (tableWf_cons.mp hm).1
  | cons p r ih =>
    obtain ⟨k, v⟩ := p
    have ⟨l1, l2, l3⟩ := tableWf_cons.mp hl
    cases m with
    | nil =>
      have := h k
      simp [tget] at this
      exact absurd this l1
    | cons q t =>
      obtain ⟨k', v'⟩ := q
      have ⟨m1, m2, m3⟩ := tableWf_cons.mp hm
      have hk : k = k' := by
        rcases Nat.lt_trichotomy k k' with lt | e | gt
        · have := h k
          rw [tget_above (l := (k', v') :: t) (k := k) (by
            intro p hp
            rcases List.mem_cons.mp hp with rfl | hp
            · exact lt
            · exact Nat.lt_trans lt (m2 p hp))] at this
          simp [tget] at this
          exact absurd this l1
        · exact e
        · have := h k'
          rw [tget_above (l := (k, v) :: r) (k := k') (by
            intro p hp
            rcases List.mem_cons.mp hp with rfl | hp
            · exact gt
            · exact Nat.lt_trans gt (l2 p hp))] at this
          simp [tget] at this
          exact absurd this.symm m1
      subst hk
      have hv : v = v' := by simpa [tget] using h k
      subst hv
      congr 1
      apply ih l3 m3
      intro j
      by_cases e : k = j
      · subst e; rw [tget_above l2, tget_above m2]
      · simpa [tget, e] using h j

/-! ### Numbers as bytes -/

@[simp] theorem natLE_length (n k : Nat) : (natLE n k).length = k := by
  induction k generalizing n with
  | zero => rfl
  | succ k ih => simp [natLE, ih]

/-- Byte `i` of a little-endian number (R16). -/
theorem natLE_get (n k i : Nat) (h : i < (natLE n k).length) : (natLE n k)[i] = BitVec.ofNat 8 (n / 2 ^ (8 * i)) := by
  induction k generalizing n i with
  | zero => simp [natLE] at h
  | succ k ih =>
    cases i with
    | zero => simp [natLE]
    | succ i =>
      simp only [natLE, List.getElem_cons_succ]
      rw [ih, Nat.div_div_eq_div_mul, show 8 * (i + 1) = 8 + 8 * i by omega, Nat.pow_add]

/-! ### Memory -/

theorem memPut_wf {m : List Host.Cell} (a : Nat) (b : Byte) (h : Memory.wf m = true) : Memory.wf (memPut m a b) = true :=
  tableWf_tput a b h

@[simp] theorem memGet_memPut_self (m : List Host.Cell) (a : Nat) (b : Byte) : memGet (memPut m a b) a = b := tget_tput_self m a b

theorem memGet_memPut_ne (m : List Host.Cell) {a c : Nat} (b : Byte) (hc : c ≠ a) : memGet (memPut m a b) c = memGet m c :=
  tget_tput_ne m b hc

/-- What a step wrote reaches memory in canonical form. -/
theorem memDrain_wf {m : List Host.Cell} (w : List Host.Cell) (h : Memory.wf m = true) : Memory.wf (memDrain m w) = true := by
  unfold memDrain
  induction w with
  | nil => exact h
  | cons p w ih => exact memPut_wf _ _ ih

@[simp] theorem memDrain_nil (m : List Host.Cell) : memDrain m [] = m := rfl

/-- Memory after a step reads as the step itself read it: its newest write, or what was there. -/
theorem memGet_memDrain (m w : List Host.Cell) (a : Nat) :
    memGet (memDrain m w) a = match w.find? (fun p => p.1 == a) with
      | some p => p.2
      | none => memGet m a := by
  induction w with
  | nil => rfl
  | cons p w ih =>
    change memGet (memPut (memDrain m w) p.1 p.2) a = _
    by_cases e : p.1 = a
    · subst e; simp
    · rw [memGet_memPut_ne _ _ (Ne.symm e), ih]
      simp [e]

/-- A byte not written in a step is unchanged by it. -/
theorem memGet_memDrain_other {m w : List Host.Cell} {a : Nat} (hw : ∀ p ∈ w, p.1 ≠ a) :
    memGet (memDrain m w) a = memGet m a := by
  rw [memGet_memDrain m w a, List.find?_eq_none.mpr (by simpa using hw)]

end Sys2Proof.Machine
end

