-- ==== Sys2Proof/Laws/Ops.lean ====
section
/-! SUPPORT. The laws of the shared operations: register fields, bytes, tables of the state, started commands, the end of a step,
register accesses, units at work. -/

namespace Sys2Proof.Machine

/-! ### Register fields -/

/-- Whether a field is stored, so that a write of it by the engine is kept. -/
def Stored (f : Field) : Prop := f.acc = .rw ∨ f.acc = .rwOnce ∨ f.acc = .ro ∨ f.acc = .w1c

theorem rd_wr_self {s : State} {f : Field} (v : Nat) (h : Stored f) : rd (wr s f v) f = v % 2 ^ f.width := by
  unfold rd wr
  rcases h with h | h | h | h <;> simp [h, Nat.xor_assoc]

theorem rd_wr_ne (s : State) {f g : Field} (v : Nat) (h : fieldKey g ≠ fieldKey f) : rd (wr s f v) g = rd s g := by
  unfold wr
  split <;> first | rfl | (unfold rd; split <;> first | rfl | (dsimp only; rw [tget_tput_ne _ _ h]))

theorem rd_bump_self {s : State} {f : Field} (n : Nat) (h : Stored f) :
    rd (bump s f n) f = satAdd f.width (rd s f) n % 2 ^ f.width := rd_wr_self _ h

theorem rd_bump_ne (s : State) {f g : Field} (n : Nat) (h : fieldKey g ≠ fieldKey f) : rd (bump s f n) g = rd s g := rd_wr_ne s _ h

/-- A register field depends on the register tables alone. -/
theorem rd_congr {s t : State} (f : Field) (hc : t.cfg = s.cfg) (hs : t.sts = s.sts) : rd t f = rd s f := by
  unfold rd; rw [hc, hs]

/-- A field that software writes depends on `cfg` alone. -/
theorem rd_congr_rw {s t : State} {f : Field} (hf : f.acc = .rw ∨ f.acc = .rwOnce) (hc : t.cfg = s.cfg) : rd t f = rd s f := by
  unfold rd; rcases hf with h | h <;> rw [h, hc]

/-! ### Tables of the state -/

@[simp] theorem arrayOf_setArray_self (s : State) (a : Nat) (x : ArraySt) : arrayOf (setArray s a x) a = x := tget_tput_self ..
@[simp] theorem groupOf_setGroup_self (s : State) (g : Nat) (x : Group) : groupOf (setGroup s g x) g = x := tget_tput_self ..
@[simp] theorem tileOf_setTile_self (s : State) (g t : Nat) (x : TileDir) : tileOf (setTile s g t x) g t = x := tget_tput_self ..
@[simp] theorem queueOf_setQueue_self (s : State) (q : Nat) (x : Queue) : queueOf (setQueue s q x) q = x := tget_tput_self ..

theorem arrayOf_setArray_ne (s : State) {a b : Nat} (x : ArraySt) (h : b ≠ a) : arrayOf (setArray s a x) b = arrayOf s b :=
  tget_tput_ne _ _ h
theorem groupOf_setGroup_ne (s : State) {a b : Nat} (x : Group) (h : b ≠ a) : groupOf (setGroup s a x) b = groupOf s b :=
  tget_tput_ne _ _ h
theorem queueOf_setQueue_ne (s : State) {a b : Nat} (x : Queue) (h : b ≠ a) : queueOf (setQueue s a x) b = queueOf s b :=
  tget_tput_ne _ _ h

/-! ### Started commands -/

theorem findCmd_key {s : State} {k : Nat} {c : Cmd} (h : findCmd s k = some c) : c.key = k := by
  have := List.find?_some h
  simpa using this

/-- Looking up a key after a change of one command. -/
theorem find_mapKey (l : List Cmd) (k j : Nat) (f : Cmd → Cmd) (hf : ∀ c, (f c).key = c.key) :
    (l.map (fun c => if c.key == k then f c else c)).find? (fun c => c.key == j) =
      (l.find? (fun c => c.key == j)).map (fun c => if c.key == k then f c else c) := by
  rw [List.find?_map]
  congr 2
  funext c
  simp only [Function.comp_apply]
  split <;> simp [hf]

/-- A change of a command that keeps its key is found again. -/
theorem findCmd_modCmd {s : State} {k : Nat} {c : Cmd} {f : Cmd → Cmd} (h : findCmd s k = some c) (hf : ∀ c, (f c).key = c.key) :
    findCmd (modCmd s k f) k = some (f c) := by
  have e := findCmd_key h
  unfold findCmd modCmd at *
  rw [find_mapKey _ _ _ _ hf, h]
  simp [e]

/-- A change of one command leaves the others. -/
theorem findCmd_modCmd_ne (s : State) {k j : Nat} {f : Cmd → Cmd} (h : j ≠ k) (hf : ∀ c, (f c).key = c.key) :
    findCmd (modCmd s k f) j = findCmd s j := by
  unfold findCmd modCmd
  rw [find_mapKey _ _ _ _ hf]
  cases e : s.cmds.find? (fun c => c.key == j) with
  | none => rfl
  | some c =>
    have : c.key = j := by simpa using List.find?_some e
    simp [this, h]

/-- A command ended by its unit is found with its status, flags and RESULT. -/
theorem findCmd_endCmd {s : State} {k : Nat} {c : Cmd} (h : findCmd s k = some c) (a b r : Nat) :
    findCmd (endCmd s k a b r) k = some (endedCmd c a b r) := findCmd_modCmd h (fun _ => rfl)

/-- What is started depends on `cmds` alone. -/
theorem findCmd_congr {s t : State} (h : t.cmds = s.cmds) (k : Nat) : findCmd t k = findCmd s k := by
  unfold findCmd; rw [h]

@[simp] theorem findCmd_settle (s t : State) (k : Nat) : findCmd (settle s t) k = findCmd t k := findCmd_congr (settle_cmds ..) k
@[simp] theorem findCmd_awaitWrites (s : State) (a b k : Nat) : findCmd (awaitWrites s a b) k = findCmd s k :=
  findCmd_congr (awaitWrites_cmds ..) k
@[simp] theorem findCmd_noteBegin (s : State) (c : Cmd) (k : Nat) : findCmd (noteBegin s c) k = findCmd s k :=
  findCmd_congr (noteBegin_cmds ..) k
@[simp] theorem findCmd_readView (s : State) (a b k : Nat) : findCmd (readView s a b) k = findCmd s k := rfl
@[simp] theorem findCmd_store (s : State) (a : Nat) (l : List Byte) (k : Nat) : findCmd (s.store a l) k = findCmd s k :=
  findCmd_congr (store_cmds ..) k

/-! ### Bytes -/

/-- A byte depends on memory, on what the step has written and on what its unit has read. -/
theorem byte_congr {s t : State} (hm : t.mem = s.mem) (hw : t.wbuf = s.wbuf) (hr : t.rbuf = s.rbuf) (a : Nat) : t.byte a = s.byte a := by
  unfold State.byte; rw [hm, hw, hr]

/-- Between steps a byte is memory's. -/
theorem byte_settled {s : State} (h : s.wbuf = []) (hr : s.rbuf = []) (a : Nat) : s.byte a = memGet s.mem a := by
  unfold State.byte; rw [h, hr]; rfl

/-- At the end of a step a byte is what the step has written there, else memory's. -/
theorem byte_settle (s t : State) (a : Nat) : (settle s t).byte a = State.byte { s with wbuf := t.wbuf, rbuf := [] } a := by
  rw [byte_settled (settle_wbuf s t) (settle_rbuf s t), settle_mem, memGet_memDrain]
  unfold State.byte
  dsimp only
  try (cases t.wbuf.find? fun p => p.1 == a <;> rfl)

/-- A byte reads the same at the end of a step as inside it, where its unit has read nothing. -/
theorem byte_settle_in {s t : State} (hm : t.mem = s.mem) (hr : t.rbuf = []) (a : Nat) : (settle s t).byte a = t.byte a := by
  rw [byte_settle]; unfold State.byte; rw [hm, hr]

/-- What a store writes depends on what the step has written before, not on what its unit has read. -/
theorem store_wbuf_congr {s t : State} (h : t.wbuf = s.wbuf) (a : Nat) (l : List Byte) : (t.store a l).wbuf = (s.store a l).wbuf := by
  unfold State.store
  generalize l.zip (List.range l.length) = z
  induction z generalizing s t with
  | nil => exact h
  | cons p z ih => rw [List.foldl_cons, List.foldl_cons]; exact ih (by simp [State.putByte, h])

theorem byte_putByte_self (s : State) (a : Nat) (b : Byte) : (s.putByte a b).byte a = b := by
  simp [State.byte, State.putByte]

theorem byte_putByte_ne (s : State) {a c : Nat} (b : Byte) (h : c ≠ a) : (s.putByte a b).byte c = s.byte c := by
  simp [State.byte, State.putByte, Ne.symm h]

/-- A store of bytes leaves every byte outside it. -/
theorem byte_store_other (s : State) (a : Nat) (l : List Byte) {c : Nat} (h : c < a ∨ a + l.length ≤ c) :
    (s.store a l).byte c = s.byte c := by
  unfold State.store
  have hb : ∀ p ∈ l.zip (List.range l.length), p.2 < l.length := fun p hp => List.mem_range.mp (List.of_mem_zip hp).2
  generalize l.zip (List.range l.length) = z at hb
  induction z generalizing s with
  | nil => rfl
  | cons p z ih =>
    rw [List.foldl_cons, ih _ (fun q hq => hb q (List.mem_cons_of_mem _ hq))]
    have := hb p List.mem_cons_self
    exact byte_putByte_ne s _ (by omega)

/-- Bytes put at places above `k` leave the byte at `k`. -/
theorem byte_puts_above (a k : Nat) (z : List (Byte × Nat)) (s : State) (h : ∀ p ∈ z, k < p.2) :
    (z.foldl (fun s p => s.putByte (a + p.2) p.1) s).byte (a + k) = s.byte (a + k) := by
  induction z generalizing s with
  | nil => rfl
  | cons p z ih =>
    rw [List.foldl_cons, ih _ (fun q hq => h q (List.mem_cons_of_mem _ hq))]
    have := h p List.mem_cons_self
    exact byte_putByte_ne s _ (by omega)

/-- A store of bytes puts each at its place. -/
theorem byte_store (s : State) (a : Nat) (l : List Byte) (i : Nat) (h : i < l.length) : (s.store a l).byte (a + i) = l[i] := by
  unfold State.store
  rw [List.range_eq_range']
  have key : ∀ (m : List Byte) (k : Nat) (s : State) (j : Nat) (hj : j < m.length),
      ((m.zip (List.range' k m.length)).foldl (fun s p => s.putByte (a + p.2) p.1) s).byte (a + (k + j)) = m[j] := by
    intro m
    induction m with
    | nil => intro k s j hj; exact absurd hj (Nat.not_lt_zero _)
    | cons b m ih =>
      intro k s j hj
      rw [List.length_cons, List.range'_succ, List.zip_cons_cons, List.foldl_cons]
      cases j with
      | zero =>
        rw [Nat.add_zero, byte_puts_above]
        · exact byte_putByte_self s (a + k) b
        · intro p hp
          have := List.mem_range'_1.mp (List.of_mem_zip hp).2
          omega
      | succ j =>
        have := ih (k + 1) (s.putByte (a + k) b) j (by simpa using hj)
        rw [show k + (j + 1) = k + 1 + j by omega, this]
        rfl
  simpa using key l 0 s i h

/-! ### The end of a step -/

/-- A step that ends by `settle` keeps the invariant. -/
theorem settle_inv {s : State} (t : State) (h : Safety.Inv s) : Safety.Inv (settle s t) :=
  ⟨memDrain_wf _ h.1, settle_wbuf s t, settle_rbuf s t⟩

/-- An interrupt summary depends on the register tables alone. -/
theorem vecSummary_congr {s t : State} (hc : t.cfg = s.cfg) (hs : t.sts = s.sts) (v : Nat) : vecSummary t v = vecSummary s v := by
  unfold vecSummary pageIrq
  simp only [rd_congr _ hc hs]

/-- No vector rises when no register changed. -/
theorem irqRises_still {s t : State} (hc : t.cfg = s.cfg) (hs : t.sts = s.sts) : irqRises s t = t := by
  unfold irqRises
  generalize List.range 4 = l
  induction l with
  | nil => rfl
  | cons v l ih =>
    rw [List.foldl_cons, vecSummary_congr hc hs]
    cases vecSummary s v <;> simpa using ih

/-- A step that writes neither a register nor memory ends as it stands. -/
theorem settle_still {s t : State} (hc : t.cfg = s.cfg) (hs : t.sts = s.sts) (hp : t.pending = s.pending) (hm : t.mem = s.mem)
    (hw : t.wbuf = []) (hr : t.rbuf = []) : settle s t = t := by
  unfold settle
  rw [irqRises_still hc hs, hw, memDrain_nil, ← hp, ← hm]
  cases t; simp_all

/-! ### Register accesses -/

/-- What an access to the register port answers, by the port's state. -/
theorem portWrite_cases (page : Nat) (f : State → State) (s : State) :
    portWrite page f s = .next s ∨ (∃ e, portWrite page f s = .next (settle s { s with regData := 0, regErr := e })) ∨
    (awake s = true ∧ pageExists page = true ∧ regAsleep s page = false ∧
      portWrite page f s = .next (settle s (f { s with regData := 0, regErr := 0 }))) := by
  unfold portWrite
  split
  · exact .inl rfl
  · split
    · exact .inr (.inl ⟨1, rfl⟩)
    · split
      · exact .inr (.inl ⟨2, rfl⟩)
      · refine .inr (.inr ⟨?_, ?_, ?_, rfl⟩) <;> simp_all

/-- An access that reaches its page has its effect. -/
theorem portWrite_acts {page : Nat} {s : State} (f : State → State) (ha : awake s = true) (hp : pageExists page = true)
    (hs : regAsleep s page = false) : portWrite page f s = .next (settle s (f { s with regData := 0, regErr := 0 })) := by
  simp [portWrite, ha, hp, hs]

/-! ### Units -/

/-- No damaged word and no lost record meets a command. -/
def Undamaged (s : State) : Prop := s.ras.damage = [] ∧ s.ras.lost = []

theorem meetDamage_none {s : State} (p : Damage → Bool) (c : Option Cmd) (h : s.ras.damage = []) : meetDamage s p c = (s, false) := by
  simp [meetDamage, h]

theorem meetUnit_none {s : State} (c : Cmd) (h : Undamaged s) : meetUnit s c = (s, false) := by
  simp [meetUnit, meetDamage_none _ _ h.1, lostFails, h.2]

/-- A command without damage and without a failed part has its unit's effect. -/
theorem actUnit_effect {s : State} {c : Cmd} (f : State → Cmd → State) (h : Undamaged s) (he : c.errs = []) :
    actUnit s c f = f (readView s c.key 7) c := by
  simp [actUnit, meetUnit_none c h, he]

/-- What a row of a unit answers: nothing, or the unit's work on the started command. -/
theorem runUnit_cases (s : State) (k : Nat) (ok : Cmd → Bool) (f : State → Cmd → State) :
    runUnit s k ok f = .next s ∨ ∃ c, findCmd s k = some c ∧ runnable s c = true ∧ ok c = true ∧
      runUnit s k ok f = .next (settle s (awaitWrites (actUnit s c f) k 7)) := by
  unfold runUnit
  split
  · next c hc =>
    split
    · next h => simp only [Bool.and_eq_true] at h; exact .inr ⟨c, hc, h.1, h.2, rfl⟩
    · exact .inl rfl
  · exact .inl rfl

/-- A started command that nothing holds is run to its end. -/
theorem runUnit_acts {s : State} {k : Nat} {c : Cmd} {ok : Cmd → Bool} (f : State → Cmd → State) (hc : findCmd s k = some c)
    (hr : runnable s c = true) (ho : ok c = true) (hd : Undamaged s) (he : c.errs = []) :
    runUnit s k ok f = .next (settle s (awaitWrites (f (readView s c.key 7) c) k 7)) := by
  simp [runUnit, hc, hr, ho, actUnit_effect f hd he]

/-- With no byte written there is nothing to wait for. -/
theorem awaitWrites_none {s : State} (k c : Nat) (h : s.wbuf = []) : awaitWrites s k c = s := by
  simp [awaitWrites, h, writtenRuns, askRuns]

end Sys2Proof.Machine
end

