-- ==== Sys2Proof/Laws/Claims.lean ====
section
/-! SUPPORT. The small lemmas of the statements' vocabulary: a command that has ended or begun, commands that share its state. -/

namespace Sys2Proof.Machine

/-- Ending a found command ends it and leaves the others. -/
theorem ended_endCmd {s u : State} {k : Nat} {c : Cmd} (h : findCmd s k = some c) (hu : u.cmds = s.cmds) (a b r : Nat) :
    Ended s (endCmd u c.key a b r) c a b r := by
  have hk := findCmd_key h
  subst hk
  refine ⟨findCmd_endCmd (by rw [findCmd_congr hu]; exact h) a b r, fun j hj => ?_⟩
  unfold endCmd
  rw [findCmd_modCmd_ne (f := fun c => endedCmd c a b r) _ hj (fun _ => rfl), findCmd_congr hu]

theorem ended_congr {s t u : State} {c : Cmd} {a b r : Nat} (h : Ended s u c a b r) (ht : t.cmds = u.cmds) : Ended s t c a b r :=
  ⟨by rw [findCmd_congr ht]; exact h.1, fun j hj => by rw [findCmd_congr ht]; exact h.2 j hj⟩

/-- Beginning a found command begins it and leaves the others. -/
theorem begins_modCmd {s u : State} {k : Nat} {c : Cmd} (h : findCmd s k = some c) (hu : u.cmds = s.cmds) :
    Begins s (modCmd u c.key (fun c => { c with phase := .begun })) c := by
  have hk := findCmd_key h
  subst hk
  refine ⟨findCmd_modCmd (f := fun c => { c with phase := .begun }) (by rw [findCmd_congr hu]; exact h) (fun _ => rfl), fun j hj => ?_⟩
  rw [findCmd_modCmd_ne (f := fun c => { c with phase := .begun }) _ hj (fun _ => rfl), findCmd_congr hu]

theorem begins_congr {s t u : State} {c : Cmd} (h : Begins s u c) (ht : t.cmds = u.cmds) : Begins s t c :=
  ⟨by rw [findCmd_congr ht]; exact h.1, fun j hj => by rw [findCmd_congr ht]; exact h.2 j hj⟩

/-- A ready command is run to its end by its unit. -/
theorem runUnit_ready {s : State} {k : Nat} {c : Cmd} {ok : Cmd → Bool} (f : State → Cmd → State) (h : Ready s k c)
    (ho : ok c = true) : runUnit s k ok f = .next (settle s (awaitWrites (f (readView s c.key 7) c) k 7)) :=
  runUnit_acts f h.1 h.2.1 ho ⟨h.2.2.2.1, h.2.2.2.2.1⟩ h.2.2.1

end Sys2Proof.Machine
end

