-- ==== Sys2Proof/Laws/Runs.lean ====
section
/-! SUPPORT. What the shared runners answer: the state unchanged, or a state settled at the end of the step. -/

namespace Sys2Proof.Machine

/-- The outcome of a meaning: a next state that keeps the invariant and the queue of waiting commands. -/
def Settles (s : State) (o : Host.Outcome State Fault Refusal) : Prop :=
  ∃ t, o = .next t ∧ (Safety.Inv s → Safety.Inv t) ∧ t.pending = s.pending

theorem Settles.same (s : State) : Settles s (.next s) := ⟨s, rfl, id, rfl⟩
theorem Settles.by (s u : State) : Settles s (.next (settle s u)) := ⟨_, rfl, settle_inv u, rfl⟩

/-- A settled outcome is a next state with the invariant. -/
theorem Settles.keeps_inv {s : State} {o : Host.Outcome State Fault Refusal} (h : Settles s o) (hi : Safety.Inv s) :
    ∃ t, o = .next t ∧ Safety.Inv t := by
  obtain ⟨t, rfl, k, _⟩ := h
  exact ⟨t, rfl, k hi⟩

/-- A settled outcome leaves the queue of waiting commands. -/
theorem Settles.pending {s t : State} {o : Host.Outcome State Fault Refusal} (h : Settles s o) (ht : o = .next t) :
    t.pending = s.pending := by
  obtain ⟨u, rfl, _, k⟩ := h
  cases ht; exact k

/-- A move that the engine makes or does not make. -/
theorem Settles.elim (s : State) (m : Option State) : Settles s (.next (m.elim s (settle s))) := by
  cases m
  · exact .same s
  · exact .by s _

/-- A row of the table that is a move of the engine. -/
theorem Settles.answer (s : State) (m : Option State) : Settles s (answer s m) := by
  unfold Machine.answer; split
  · exact .by s _
  · exact .same s

theorem Settles.unit (s : State) (k : Nat) (ok : Cmd → Bool) (f : State → Cmd → State) : Settles s (runUnit s k ok f) := by
  rcases runUnit_cases s k ok f with h | ⟨c, _, _, _, h⟩ <;> rw [h]
  · exact .same s
  · exact .by s _

theorem Settles.groupUnit (s : State) (k : Nat) (ok : Cmd → Bool) (g : Cmd → Nat) (f : State → Cmd → State) :
    Settles s (runGroupUnit s k ok g f) := .unit ..

theorem Settles.port (p : Nat) (f : State → State) (s : State) : Settles s (portWrite p f s) := by
  rcases portWrite_cases p f s with h | ⟨e, h⟩ | ⟨_, _, _, h⟩ <;> rw [h]
  · exact .same s
  · exact .by s _
  · exact .by s _

theorem Settles.test (f : State → State) (s : State) : Settles s (testPort f s) := by
  unfold testPort
  split
  · exact .same s
  · exact .by s _

theorem Settles.sca (s : State) (k : Nat) (ok : Cmd → Bool) : Settles s (runSca s k ok) := by
  unfold runSca
  split
  · split
    · exact .elim s _
    · exact .same s
  · exact .same s

/-- The moves of a product keep the invariant and the queue of waiting commands. -/
theorem productRun_keeps (k n : Nat) (s : State) :
    (Safety.Inv s → Safety.Inv (productRun k n s)) ∧ (productRun k n s).pending = s.pending := by
  induction n generalizing s with
  | zero => exact ⟨id, rfl⟩
  | succ n ih =>
    rw [productRun]
    split
    · exact ⟨id, rfl⟩
    · next t _ => exact ⟨fun h => (ih _).1 (settle_inv t h), (ih _).2⟩

theorem Settles.product (op : Nat) (r : CmdRef) (s : State) : Settles s (execProduct op r s) := by
  unfold execProduct
  split
  · split
    · exact ⟨_, rfl, (productRun_keeps ..).1, (productRun_keeps ..).2⟩
    · exact .same s
  · exact .same s

end Sys2Proof.Machine
end

