-- ==== Sys2Proof/Laws/Screed.lean ====
section
/-! SUPPORT. What emptying a group changes, and how a filtered table reads. -/

namespace Sys2Proof.Machine

theorem awaitWrites_mreqs_none {s : State} (k c : Nat) (h : s.wbuf = []) : (awaitWrites s k c).mreqs = s.mreqs := by
  rw [awaitWrites_none _ _ h]

/-- A counter of the engine leaves what software writes. -/
theorem bump_cfg_ro (s : State) (f : Field) (n : Nat) (h : f.acc = .ro ∨ f.acc = .w1c) : (bump s f n).cfg = s.cfg :=
  wr_cfg_ro _ _ _ h

/-- A table filtered by key reads as before where the key stays, and as nothing where it goes. -/
theorem tget_filter {α : Type} (d : α) (p : Nat → Bool) (l : List (Nat × α)) (k : Nat) :
    tget d (l.filter (fun x => p x.1)) k = if p k then tget d l k else d := by
  induction l with
  | nil => simp [tget]
  | cons x l ih =>
    by_cases hp : p x.1
    · rw [List.filter_cons_of_pos (by simpa using hp)]
      simp only [tget]
      split
      · next e => subst e; simp [hp]
      · exact ih
    · rw [List.filter_cons_of_neg (by simpa using hp), ih]
      simp only [tget]
      split
      · split
        · next e => subst e; simp_all
        · rfl
      · rfl

theorem dropFrames_only (l : List (Nat × TileDir)) (s : State) :
    l.foldl (fun s p => if p.2.state == .resident then dropFrame s p.2.frame else s) s =
      { s with frames := (l.foldl (fun s p => if p.2.state == .resident then dropFrame s p.2.frame else s) s).frames } := by
  induction l generalizing s with
  | nil => rfl
  | cons p l ih =>
    rw [List.foldl_cons, ih]
    split <;> rfl

/-- Clearing a group's tiles takes its directory entries out and frees frames. -/
theorem clearTiles_only (s : State) (g : Nat) : clearTiles s g =
    { s with tiles := s.tiles.filter (fun p => p.1 / 2 ^ 14 != g), frames := (clearTiles s g).frames } := by
  unfold clearTiles
  dsimp only
  rw [dropFrames_only]

/-- Discarding a group's preloads takes them out and counts them. -/
theorem dropPreloads_only (s : State) (g : Nat) : dropPreloads s g =
    { s with preloads := s.preloads.filter (fun p => p.group != g), sts := (dropPreloads s g).sts } := by
  unfold dropPreloads
  dsimp only
  rw [bump_only, bump_cfg_ro _ _ _ (.inl rfl)]

/-- Everything that emptying a group does. -/
theorem emptyGroup_only (s : State) (g : Nat) (ab : Bool) : emptyGroup s g ab =
    { s with tiles := s.tiles.filter (fun p => p.1 / 2 ^ 14 != g), frames := (clearTiles s g).frames,
             preloads := s.preloads.filter (fun p => p.group != g), sts := (emptyGroup s g ab).sts,
             groups := tput groupFree s.groups g (emptiedGroup ab (groupOf s g)) } := by
  unfold emptyGroup setGroup
  dsimp only
  rw [dropPreloads_only, clearTiles_only]
  rfl

@[simp] theorem emptyGroup_tiles (s : State) (g : Nat) (ab : Bool) :
    (emptyGroup s g ab).tiles = s.tiles.filter (fun p => p.1 / 2 ^ 14 != g) := by rw [emptyGroup_only]
@[simp] theorem emptyGroup_preloads (s : State) (g : Nat) (ab : Bool) :
    (emptyGroup s g ab).preloads = s.preloads.filter (fun p => p.group != g) := by rw [emptyGroup_only]
@[simp] theorem emptyGroup_groups (s : State) (g : Nat) (ab : Bool) :
    (emptyGroup s g ab).groups = tput groupFree s.groups g (emptiedGroup ab (groupOf s g)) := by rw [emptyGroup_only]

/-- The tiles of a group taken out of the directory are UNTOUCHED, those of the others stay. -/
theorem tileOf_filtered {s t : State} {g : Nat} (h : t.tiles = s.tiles.filter (fun p => p.1 / 2 ^ 14 != g)) :
    (∀ k < 2 ^ 14, tileOf t g k = tileEmpty) ∧ ∀ h k, h ≠ g → k < 2 ^ 14 → tileOf t h k = tileOf s h k := by
  have key : ∀ g' k, k < 2 ^ 14 → tileKey g' k / 2 ^ 14 = g' := by intro g' k hk; unfold tileKey; omega
  constructor
  · intro k hk
    unfold tileOf
    rw [h, tget_filter _ (fun n => n / 2 ^ 14 != g), if_neg (fun hn => by
      have hn : (tileKey g k / 2 ^ 14 != g) = true := hn
      rw [key g k hk, bne_self_eq_false] at hn
      cases hn)]
  · intro g' k hg hk
    unfold tileOf
    rw [h, tget_filter _ (fun n => n / 2 ^ 14 != g), if_pos (show (tileKey g' k / 2 ^ 14 != g) = true by rw [key g' k hk]; exact bne_iff_ne.2 hg)]

end Sys2Proof.Machine
end

