-- ==== Sys2Proof/Laws/ScreedFields.lean ====
section
/-! SUPPORT. The fields that the Screed's shared operations leave as they were. -/

namespace Sys2Proof.Machine

/-! ### emptyGroup -/

@[simp] theorem emptyGroup_pending (s : State) (g : Nat) (ab : Bool) : (emptyGroup s g ab).pending = s.pending := by rw [emptyGroup_only]
@[simp] theorem emptyGroup_mem (s : State) (g : Nat) (ab : Bool) : (emptyGroup s g ab).mem = s.mem := by rw [emptyGroup_only]
@[simp] theorem emptyGroup_wbuf (s : State) (g : Nat) (ab : Bool) : (emptyGroup s g ab).wbuf = s.wbuf := by rw [emptyGroup_only]
@[simp] theorem emptyGroup_cfg (s : State) (g : Nat) (ab : Bool) : (emptyGroup s g ab).cfg = s.cfg := by rw [emptyGroup_only]
@[simp] theorem emptyGroup_queues (s : State) (g : Nat) (ab : Bool) : (emptyGroup s g ab).queues = s.queues := by rw [emptyGroup_only]
@[simp] theorem emptyGroup_cmds (s : State) (g : Nat) (ab : Bool) : (emptyGroup s g ab).cmds = s.cmds := by rw [emptyGroup_only]
@[simp] theorem emptyGroup_mreqs (s : State) (g : Nat) (ab : Bool) : (emptyGroup s g ab).mreqs = s.mreqs := by rw [emptyGroup_only]
@[simp] theorem emptyGroup_rrobin (s : State) (g : Nat) (ab : Bool) : (emptyGroup s g ab).rrobin = s.rrobin := by rw [emptyGroup_only]
@[simp] theorem emptyGroup_arrays (s : State) (g : Nat) (ab : Bool) : (emptyGroup s g ab).arrays = s.arrays := by rw [emptyGroup_only]
@[simp] theorem emptyGroup_arrFail (s : State) (g : Nat) (ab : Bool) : (emptyGroup s g ab).arrFail = s.arrFail := by rw [emptyGroup_only]
@[simp] theorem emptyGroup_hod (s : State) (g : Nat) (ab : Bool) : (emptyGroup s g ab).hod = s.hod := by rw [emptyGroup_only]
@[simp] theorem emptyGroup_dyCache (s : State) (g : Nat) (ab : Bool) : (emptyGroup s g ab).dyCache = s.dyCache := by rw [emptyGroup_only]
@[simp] theorem emptyGroup_loadw (s : State) (g : Nat) (ab : Bool) : (emptyGroup s g ab).loadw = s.loadw := by rw [emptyGroup_only]
@[simp] theorem emptyGroup_images (s : State) (g : Nat) (ab : Bool) : (emptyGroup s g ab).images = s.images := by rw [emptyGroup_only]
@[simp] theorem emptyGroup_lcache (s : State) (g : Nat) (ab : Bool) : (emptyGroup s g ab).lcache = s.lcache := by rw [emptyGroup_only]
@[simp] theorem emptyGroup_lcacheAge (s : State) (g : Nat) (ab : Bool) : (emptyGroup s g ab).lcacheAge = s.lcacheAge := by rw [emptyGroup_only]
@[simp] theorem emptyGroup_rbuf (s : State) (g : Nat) (ab : Bool) : (emptyGroup s g ab).rbuf = s.rbuf := by rw [emptyGroup_only]
@[simp] theorem emptyGroup_mwait (s : State) (g : Nat) (ab : Bool) : (emptyGroup s g ab).mwait = s.mwait := by rw [emptyGroup_only]
@[simp] theorem emptyGroup_staged (s : State) (g : Nat) (ab : Bool) : (emptyGroup s g ab).staged = s.staged := by rw [emptyGroup_only]
@[simp] theorem emptyGroup_clock (s : State) (g : Nat) (ab : Bool) : (emptyGroup s g ab).clock = s.clock := by rw [emptyGroup_only]
@[simp] theorem emptyGroup_diverts (s : State) (g : Nat) (ab : Bool) : (emptyGroup s g ab).diverts = s.diverts := by rw [emptyGroup_only]
@[simp] theorem emptyGroup_folds (s : State) (g : Nat) (ab : Bool) : (emptyGroup s g ab).folds = s.folds := by rw [emptyGroup_only]
@[simp] theorem emptyGroup_ledger (s : State) (g : Nat) (ab : Bool) : (emptyGroup s g ab).ledger = s.ledger := by rw [emptyGroup_only]
@[simp] theorem emptyGroup_advisor (s : State) (g : Nat) (ab : Bool) : (emptyGroup s g ab).advisor = s.advisor := by rw [emptyGroup_only]
@[simp] theorem emptyGroup_statsCom (s : State) (g : Nat) (ab : Bool) : (emptyGroup s g ab).statsCom = s.statsCom := by rw [emptyGroup_only]
@[simp] theorem emptyGroup_statsSt (s : State) (g : Nat) (ab : Bool) : (emptyGroup s g ab).statsSt = s.statsSt := by rw [emptyGroup_only]
@[simp] theorem emptyGroup_epoch (s : State) (g : Nat) (ab : Bool) : (emptyGroup s g ab).epoch = s.epoch := by rw [emptyGroup_only]
@[simp] theorem emptyGroup_rxOpen (s : State) (g : Nat) (ab : Bool) : (emptyGroup s g ab).rxOpen = s.rxOpen := by rw [emptyGroup_only]
@[simp] theorem emptyGroup_rxClosed (s : State) (g : Nat) (ab : Bool) : (emptyGroup s g ab).rxClosed = s.rxClosed := by rw [emptyGroup_only]
@[simp] theorem emptyGroup_txq (s : State) (g : Nat) (ab : Bool) : (emptyGroup s g ab).txq = s.txq := by rw [emptyGroup_only]
@[simp] theorem emptyGroup_txAwait (s : State) (g : Nat) (ab : Bool) : (emptyGroup s g ab).txAwait = s.txAwait := by rw [emptyGroup_only]
@[simp] theorem emptyGroup_txState (s : State) (g : Nat) (ab : Bool) : (emptyGroup s g ab).txState = s.txState := by rw [emptyGroup_only]
@[simp] theorem emptyGroup_frs (s : State) (g : Nat) (ab : Bool) : (emptyGroup s g ab).frs = s.frs := by rw [emptyGroup_only]
@[simp] theorem emptyGroup_handoffs (s : State) (g : Nat) (ab : Bool) : (emptyGroup s g ab).handoffs = s.handoffs := by rw [emptyGroup_only]
@[simp] theorem emptyGroup_snap (s : State) (g : Nat) (ab : Bool) : (emptyGroup s g ab).snap = s.snap := by rw [emptyGroup_only]
@[simp] theorem emptyGroup_power (s : State) (g : Nat) (ab : Bool) : (emptyGroup s g ab).power = s.power := by rw [emptyGroup_only]
@[simp] theorem emptyGroup_ras (s : State) (g : Nat) (ab : Bool) : (emptyGroup s g ab).ras = s.ras := by rw [emptyGroup_only]
@[simp] theorem emptyGroup_tb (s : State) (g : Nat) (ab : Bool) : (emptyGroup s g ab).tb = s.tb := by rw [emptyGroup_only]
@[simp] theorem emptyGroup_trace (s : State) (g : Nat) (ab : Bool) : (emptyGroup s g ab).trace = s.trace := by rw [emptyGroup_only]
@[simp] theorem emptyGroup_cport (s : State) (g : Nat) (ab : Bool) : (emptyGroup s g ab).cport = s.cport := by rw [emptyGroup_only]
@[simp] theorem emptyGroup_regData (s : State) (g : Nat) (ab : Bool) : (emptyGroup s g ab).regData = s.regData := by rw [emptyGroup_only]
@[simp] theorem emptyGroup_regErr (s : State) (g : Nat) (ab : Bool) : (emptyGroup s g ab).regErr = s.regErr := by rw [emptyGroup_only]
@[simp] theorem emptyGroup_bist (s : State) (g : Nat) (ab : Bool) : (emptyGroup s g ab).bist = s.bist := by rw [emptyGroup_only]
@[simp] theorem emptyGroup_test (s : State) (g : Nat) (ab : Bool) : (emptyGroup s g ab).test = s.test := by rw [emptyGroup_only]
@[simp] theorem emptyGroup_rstLow (s : State) (g : Nat) (ab : Bool) : (emptyGroup s g ab).rstLow = s.rstLow := by rw [emptyGroup_only]
@[simp] theorem emptyGroup_wrstLow (s : State) (g : Nat) (ab : Bool) : (emptyGroup s g ab).wrstLow = s.wrstLow := by rw [emptyGroup_only]
@[simp] theorem emptyGroup_quiet (s : State) (g : Nat) (ab : Bool) : (emptyGroup s g ab).quiet = s.quiet := by rw [emptyGroup_only]
@[simp] theorem emptyGroup_free (s : State) (g : Nat) (ab : Bool) : (emptyGroup s g ab).free = s.free := by rw [emptyGroup_only]

/-! ### dropPreloads -/

@[simp] theorem dropPreloads_pending (s : State) (g : Nat) : (dropPreloads s g).pending = s.pending := by rw [dropPreloads_only]
@[simp] theorem dropPreloads_mem (s : State) (g : Nat) : (dropPreloads s g).mem = s.mem := by rw [dropPreloads_only]
@[simp] theorem dropPreloads_wbuf (s : State) (g : Nat) : (dropPreloads s g).wbuf = s.wbuf := by rw [dropPreloads_only]
@[simp] theorem dropPreloads_cfg (s : State) (g : Nat) : (dropPreloads s g).cfg = s.cfg := by rw [dropPreloads_only]
@[simp] theorem dropPreloads_queues (s : State) (g : Nat) : (dropPreloads s g).queues = s.queues := by rw [dropPreloads_only]
@[simp] theorem dropPreloads_cmds (s : State) (g : Nat) : (dropPreloads s g).cmds = s.cmds := by rw [dropPreloads_only]
@[simp] theorem dropPreloads_mreqs (s : State) (g : Nat) : (dropPreloads s g).mreqs = s.mreqs := by rw [dropPreloads_only]
@[simp] theorem dropPreloads_rrobin (s : State) (g : Nat) : (dropPreloads s g).rrobin = s.rrobin := by rw [dropPreloads_only]
@[simp] theorem dropPreloads_arrays (s : State) (g : Nat) : (dropPreloads s g).arrays = s.arrays := by rw [dropPreloads_only]
@[simp] theorem dropPreloads_arrFail (s : State) (g : Nat) : (dropPreloads s g).arrFail = s.arrFail := by rw [dropPreloads_only]
@[simp] theorem dropPreloads_hod (s : State) (g : Nat) : (dropPreloads s g).hod = s.hod := by rw [dropPreloads_only]
@[simp] theorem dropPreloads_dyCache (s : State) (g : Nat) : (dropPreloads s g).dyCache = s.dyCache := by rw [dropPreloads_only]
@[simp] theorem dropPreloads_loadw (s : State) (g : Nat) : (dropPreloads s g).loadw = s.loadw := by rw [dropPreloads_only]
@[simp] theorem dropPreloads_images (s : State) (g : Nat) : (dropPreloads s g).images = s.images := by rw [dropPreloads_only]
@[simp] theorem dropPreloads_lcache (s : State) (g : Nat) : (dropPreloads s g).lcache = s.lcache := by rw [dropPreloads_only]
@[simp] theorem dropPreloads_lcacheAge (s : State) (g : Nat) : (dropPreloads s g).lcacheAge = s.lcacheAge := by rw [dropPreloads_only]
@[simp] theorem dropPreloads_rbuf (s : State) (g : Nat) : (dropPreloads s g).rbuf = s.rbuf := by rw [dropPreloads_only]
@[simp] theorem dropPreloads_mwait (s : State) (g : Nat) : (dropPreloads s g).mwait = s.mwait := by rw [dropPreloads_only]
@[simp] theorem dropPreloads_staged (s : State) (g : Nat) : (dropPreloads s g).staged = s.staged := by rw [dropPreloads_only]
@[simp] theorem dropPreloads_groups (s : State) (g : Nat) : (dropPreloads s g).groups = s.groups := by rw [dropPreloads_only]
@[simp] theorem dropPreloads_tiles (s : State) (g : Nat) : (dropPreloads s g).tiles = s.tiles := by rw [dropPreloads_only]
@[simp] theorem dropPreloads_frames (s : State) (g : Nat) : (dropPreloads s g).frames = s.frames := by rw [dropPreloads_only]
@[simp] theorem dropPreloads_clock (s : State) (g : Nat) : (dropPreloads s g).clock = s.clock := by rw [dropPreloads_only]
@[simp] theorem dropPreloads_diverts (s : State) (g : Nat) : (dropPreloads s g).diverts = s.diverts := by rw [dropPreloads_only]
@[simp] theorem dropPreloads_folds (s : State) (g : Nat) : (dropPreloads s g).folds = s.folds := by rw [dropPreloads_only]
@[simp] theorem dropPreloads_ledger (s : State) (g : Nat) : (dropPreloads s g).ledger = s.ledger := by rw [dropPreloads_only]
@[simp] theorem dropPreloads_advisor (s : State) (g : Nat) : (dropPreloads s g).advisor = s.advisor := by rw [dropPreloads_only]
@[simp] theorem dropPreloads_statsCom (s : State) (g : Nat) : (dropPreloads s g).statsCom = s.statsCom := by rw [dropPreloads_only]
@[simp] theorem dropPreloads_statsSt (s : State) (g : Nat) : (dropPreloads s g).statsSt = s.statsSt := by rw [dropPreloads_only]
@[simp] theorem dropPreloads_epoch (s : State) (g : Nat) : (dropPreloads s g).epoch = s.epoch := by rw [dropPreloads_only]
@[simp] theorem dropPreloads_rxOpen (s : State) (g : Nat) : (dropPreloads s g).rxOpen = s.rxOpen := by rw [dropPreloads_only]
@[simp] theorem dropPreloads_rxClosed (s : State) (g : Nat) : (dropPreloads s g).rxClosed = s.rxClosed := by rw [dropPreloads_only]
@[simp] theorem dropPreloads_txq (s : State) (g : Nat) : (dropPreloads s g).txq = s.txq := by rw [dropPreloads_only]
@[simp] theorem dropPreloads_txAwait (s : State) (g : Nat) : (dropPreloads s g).txAwait = s.txAwait := by rw [dropPreloads_only]
@[simp] theorem dropPreloads_txState (s : State) (g : Nat) : (dropPreloads s g).txState = s.txState := by rw [dropPreloads_only]
@[simp] theorem dropPreloads_frs (s : State) (g : Nat) : (dropPreloads s g).frs = s.frs := by rw [dropPreloads_only]
@[simp] theorem dropPreloads_handoffs (s : State) (g : Nat) : (dropPreloads s g).handoffs = s.handoffs := by rw [dropPreloads_only]
@[simp] theorem dropPreloads_snap (s : State) (g : Nat) : (dropPreloads s g).snap = s.snap := by rw [dropPreloads_only]
@[simp] theorem dropPreloads_power (s : State) (g : Nat) : (dropPreloads s g).power = s.power := by rw [dropPreloads_only]
@[simp] theorem dropPreloads_ras (s : State) (g : Nat) : (dropPreloads s g).ras = s.ras := by rw [dropPreloads_only]
@[simp] theorem dropPreloads_tb (s : State) (g : Nat) : (dropPreloads s g).tb = s.tb := by rw [dropPreloads_only]
@[simp] theorem dropPreloads_trace (s : State) (g : Nat) : (dropPreloads s g).trace = s.trace := by rw [dropPreloads_only]
@[simp] theorem dropPreloads_cport (s : State) (g : Nat) : (dropPreloads s g).cport = s.cport := by rw [dropPreloads_only]
@[simp] theorem dropPreloads_regData (s : State) (g : Nat) : (dropPreloads s g).regData = s.regData := by rw [dropPreloads_only]
@[simp] theorem dropPreloads_regErr (s : State) (g : Nat) : (dropPreloads s g).regErr = s.regErr := by rw [dropPreloads_only]
@[simp] theorem dropPreloads_bist (s : State) (g : Nat) : (dropPreloads s g).bist = s.bist := by rw [dropPreloads_only]
@[simp] theorem dropPreloads_test (s : State) (g : Nat) : (dropPreloads s g).test = s.test := by rw [dropPreloads_only]
@[simp] theorem dropPreloads_rstLow (s : State) (g : Nat) : (dropPreloads s g).rstLow = s.rstLow := by rw [dropPreloads_only]
@[simp] theorem dropPreloads_wrstLow (s : State) (g : Nat) : (dropPreloads s g).wrstLow = s.wrstLow := by rw [dropPreloads_only]
@[simp] theorem dropPreloads_quiet (s : State) (g : Nat) : (dropPreloads s g).quiet = s.quiet := by rw [dropPreloads_only]
@[simp] theorem dropPreloads_free (s : State) (g : Nat) : (dropPreloads s g).free = s.free := by rw [dropPreloads_only]

/-! ### clearTiles -/

@[simp] theorem clearTiles_pending (s : State) (g : Nat) : (clearTiles s g).pending = s.pending := by rw [clearTiles_only]
@[simp] theorem clearTiles_mem (s : State) (g : Nat) : (clearTiles s g).mem = s.mem := by rw [clearTiles_only]
@[simp] theorem clearTiles_wbuf (s : State) (g : Nat) : (clearTiles s g).wbuf = s.wbuf := by rw [clearTiles_only]
@[simp] theorem clearTiles_cfg (s : State) (g : Nat) : (clearTiles s g).cfg = s.cfg := by rw [clearTiles_only]
@[simp] theorem clearTiles_sts (s : State) (g : Nat) : (clearTiles s g).sts = s.sts := by rw [clearTiles_only]
@[simp] theorem clearTiles_queues (s : State) (g : Nat) : (clearTiles s g).queues = s.queues := by rw [clearTiles_only]
@[simp] theorem clearTiles_cmds (s : State) (g : Nat) : (clearTiles s g).cmds = s.cmds := by rw [clearTiles_only]
@[simp] theorem clearTiles_mreqs (s : State) (g : Nat) : (clearTiles s g).mreqs = s.mreqs := by rw [clearTiles_only]
@[simp] theorem clearTiles_rrobin (s : State) (g : Nat) : (clearTiles s g).rrobin = s.rrobin := by rw [clearTiles_only]
@[simp] theorem clearTiles_arrays (s : State) (g : Nat) : (clearTiles s g).arrays = s.arrays := by rw [clearTiles_only]
@[simp] theorem clearTiles_arrFail (s : State) (g : Nat) : (clearTiles s g).arrFail = s.arrFail := by rw [clearTiles_only]
@[simp] theorem clearTiles_hod (s : State) (g : Nat) : (clearTiles s g).hod = s.hod := by rw [clearTiles_only]
@[simp] theorem clearTiles_dyCache (s : State) (g : Nat) : (clearTiles s g).dyCache = s.dyCache := by rw [clearTiles_only]
@[simp] theorem clearTiles_loadw (s : State) (g : Nat) : (clearTiles s g).loadw = s.loadw := by rw [clearTiles_only]
@[simp] theorem clearTiles_images (s : State) (g : Nat) : (clearTiles s g).images = s.images := by rw [clearTiles_only]
@[simp] theorem clearTiles_lcache (s : State) (g : Nat) : (clearTiles s g).lcache = s.lcache := by rw [clearTiles_only]
@[simp] theorem clearTiles_lcacheAge (s : State) (g : Nat) : (clearTiles s g).lcacheAge = s.lcacheAge := by rw [clearTiles_only]
@[simp] theorem clearTiles_rbuf (s : State) (g : Nat) : (clearTiles s g).rbuf = s.rbuf := by rw [clearTiles_only]
@[simp] theorem clearTiles_mwait (s : State) (g : Nat) : (clearTiles s g).mwait = s.mwait := by rw [clearTiles_only]
@[simp] theorem clearTiles_staged (s : State) (g : Nat) : (clearTiles s g).staged = s.staged := by rw [clearTiles_only]
@[simp] theorem clearTiles_groups (s : State) (g : Nat) : (clearTiles s g).groups = s.groups := by rw [clearTiles_only]
@[simp] theorem clearTiles_clock (s : State) (g : Nat) : (clearTiles s g).clock = s.clock := by rw [clearTiles_only]
@[simp] theorem clearTiles_preloads (s : State) (g : Nat) : (clearTiles s g).preloads = s.preloads := by rw [clearTiles_only]
@[simp] theorem clearTiles_diverts (s : State) (g : Nat) : (clearTiles s g).diverts = s.diverts := by rw [clearTiles_only]
@[simp] theorem clearTiles_folds (s : State) (g : Nat) : (clearTiles s g).folds = s.folds := by rw [clearTiles_only]
@[simp] theorem clearTiles_ledger (s : State) (g : Nat) : (clearTiles s g).ledger = s.ledger := by rw [clearTiles_only]
@[simp] theorem clearTiles_advisor (s : State) (g : Nat) : (clearTiles s g).advisor = s.advisor := by rw [clearTiles_only]
@[simp] theorem clearTiles_statsCom (s : State) (g : Nat) : (clearTiles s g).statsCom = s.statsCom := by rw [clearTiles_only]
@[simp] theorem clearTiles_statsSt (s : State) (g : Nat) : (clearTiles s g).statsSt = s.statsSt := by rw [clearTiles_only]
@[simp] theorem clearTiles_epoch (s : State) (g : Nat) : (clearTiles s g).epoch = s.epoch := by rw [clearTiles_only]
@[simp] theorem clearTiles_rxOpen (s : State) (g : Nat) : (clearTiles s g).rxOpen = s.rxOpen := by rw [clearTiles_only]
@[simp] theorem clearTiles_rxClosed (s : State) (g : Nat) : (clearTiles s g).rxClosed = s.rxClosed := by rw [clearTiles_only]
@[simp] theorem clearTiles_txq (s : State) (g : Nat) : (clearTiles s g).txq = s.txq := by rw [clearTiles_only]
@[simp] theorem clearTiles_txAwait (s : State) (g : Nat) : (clearTiles s g).txAwait = s.txAwait := by rw [clearTiles_only]
@[simp] theorem clearTiles_txState (s : State) (g : Nat) : (clearTiles s g).txState = s.txState := by rw [clearTiles_only]
@[simp] theorem clearTiles_frs (s : State) (g : Nat) : (clearTiles s g).frs = s.frs := by rw [clearTiles_only]
@[simp] theorem clearTiles_handoffs (s : State) (g : Nat) : (clearTiles s g).handoffs = s.handoffs := by rw [clearTiles_only]
@[simp] theorem clearTiles_snap (s : State) (g : Nat) : (clearTiles s g).snap = s.snap := by rw [clearTiles_only]
@[simp] theorem clearTiles_power (s : State) (g : Nat) : (clearTiles s g).power = s.power := by rw [clearTiles_only]
@[simp] theorem clearTiles_ras (s : State) (g : Nat) : (clearTiles s g).ras = s.ras := by rw [clearTiles_only]
@[simp] theorem clearTiles_tb (s : State) (g : Nat) : (clearTiles s g).tb = s.tb := by rw [clearTiles_only]
@[simp] theorem clearTiles_trace (s : State) (g : Nat) : (clearTiles s g).trace = s.trace := by rw [clearTiles_only]
@[simp] theorem clearTiles_cport (s : State) (g : Nat) : (clearTiles s g).cport = s.cport := by rw [clearTiles_only]
@[simp] theorem clearTiles_regData (s : State) (g : Nat) : (clearTiles s g).regData = s.regData := by rw [clearTiles_only]
@[simp] theorem clearTiles_regErr (s : State) (g : Nat) : (clearTiles s g).regErr = s.regErr := by rw [clearTiles_only]
@[simp] theorem clearTiles_bist (s : State) (g : Nat) : (clearTiles s g).bist = s.bist := by rw [clearTiles_only]
@[simp] theorem clearTiles_test (s : State) (g : Nat) : (clearTiles s g).test = s.test := by rw [clearTiles_only]
@[simp] theorem clearTiles_rstLow (s : State) (g : Nat) : (clearTiles s g).rstLow = s.rstLow := by rw [clearTiles_only]
@[simp] theorem clearTiles_wrstLow (s : State) (g : Nat) : (clearTiles s g).wrstLow = s.wrstLow := by rw [clearTiles_only]
@[simp] theorem clearTiles_quiet (s : State) (g : Nat) : (clearTiles s g).quiet = s.quiet := by rw [clearTiles_only]
@[simp] theorem clearTiles_free (s : State) (g : Nat) : (clearTiles s g).free = s.free := by rw [clearTiles_only]


end Sys2Proof.Machine
end

