-- ==== Sys2Proof/WellFormed.lean ====
section
/-! DEFINITION. What a command must satisfy beyond the types of its operands. -/

namespace Sys2Proof

/-- Whether a page code names a page of the map (R423). -/
def wfPage (p : BitVec 8) : Bool :=
  p.toNat < 0x0E || (0x10 ≤ p.toNat && p.toNat < 0x16) || (0x30 ≤ p.toNat && p.toNat < 0x40)

/-- Whether an array number names one of the 24 arrays (R108). -/
def wfArray (a : BitVec 5) : Bool := a.toNat < 24

/-- A command is well formed when its array and page numbers exist, its memory class is one of the 13 of R363, and
a packet or response carries no more bytes than the port moves in one (R385, R390, R393). -/
def WellFormed (i : Instr) : Bool :=
  match i with
  | .planeSaveComplete a => wfArray a
  | .planeLoadComplete a => wfArray a
  | .slotLoad a => wfArray a
  | .rowGroupIssue a => wfArray a
  | .patchRowGroup a _ => wfArray a
  | .carryRelay a => wfArray a
  | .fillerBridgeExpiry a => wfArray a
  | .starve a _ => wfArray a
  | .foldBegin a => wfArray a
  | .foldEnd a => wfArray a
  | .bistControllerStart u _ => u.toNat < 63
  | .bistControllerDone u _ _ _ _ => u.toNat < 63
  | .arrayFailure a => wfArray a
  | .ctlClr p => wfPage p
  | .clrUe p => wfPage p
  | .evtClear p _ => wfPage p
  | .memoryError e _ => e.cls.toNat < 13
  | .fportReceive _ _ b => b.length ≤ 65536
  | _ => true

end Sys2Proof
end

