-- ==== Sys2Proof/Tests/Slice0.lean ====
section
/-! SUPPORT. Tests: an ill-formed operand for each check of WellFormed, states that meet the hypotheses of the statements, and small runs of
one command whose results come from the manual. -/

namespace Sys2Proof.Tests
set_option Elab.async false
open Sys2Proof.Machine

/-! ### Small states -/

/-- The engine in IDLE with its clocks running. -/
def idle : State := { State.reset with power := ⟨.idle, .running, true, true, false, false, false, false, 0, 0⟩ }

/-- The same in ACTIVE, with every array live. -/
def active : State :=
  { wr (wr (wr idle glbArrayLiveLive 0xFFFFFF) glbArrayLiveGrade 1) glbArrayLiveLocked 1 with
    power := ⟨.active, .running, true, true, false, false, false, false, 0, 0⟩ }

/-- Bytes from (offset, length, value) fields in rising order. -/
def fill (at' : Nat) : List (Nat × Nat × Nat) → List Byte
  | [] => []
  | (o, n, v) :: r => zeros (o - at') ++ natLE v n ++ fill (o + n) r

/-- A descriptor: its opcode and further fields. -/
def desc (op : Nat) (l : List (Nat × Nat × Nat) := []) : List Byte := fill 0 ((0, 1, op) :: l)

/-- A started command of queue 1 with the sequence number given. -/
def cmd (seq : Nat) (d : List Byte) : Cmd := newCmd idle (2 ^ 32 + seq) d 0

def ref (seq : Nat) : CmdRef := ⟨1#4, BitVec.ofNat 32 seq⟩
def key (seq : Nat) : Nat := refKey (ref seq)

/-- States with started commands. -/
def holding (l : List Cmd) : State := { idle with cmds := l }
def working (l : List Cmd) : State := { active with cmds := l }

/-- An OPEN group of one tile of 2 × 2 entries with a binary64 home. -/
def group22 : Group := { groupFree with state := .open, rows := 2, cols := 2, homeAddr := 0x10000, homePitch := 64, homeFmt := 0xA, step := 1 }

/-- A command that has begun. -/
def begun (c : Cmd) : Cmd := { c with phase := .begun }

/-! ### WellFormed refuses -/

theorem test_wellformed_array : WellFormed (.slotLoad 23#5) = true ∧ WellFormed (.slotLoad 24#5) = false ∧ WellFormed (.starve 31#5 0#8) = false ∧
    WellFormed (.planeSaveComplete 24#5) = false ∧ WellFormed (.planeLoadComplete 24#5) = false ∧ WellFormed (.rowGroupIssue 24#5) = false ∧
    WellFormed (.patchRowGroup 24#5 0#8) = false ∧ WellFormed (.carryRelay 24#5) = false ∧ WellFormed (.fillerBridgeExpiry 24#5) = false ∧
    WellFormed (.foldBegin 24#5) = false ∧ WellFormed (.foldEnd 24#5) = false ∧ WellFormed (.bistControllerStart 63#6 1#2) = false ∧
    WellFormed (.bistControllerDone 63#6 true 0#64 0#16 0#48) = false ∧ WellFormed (.arrayFailure 24#5) = false := by decide

theorem test_wellformed_page : WellFormed (.ctlClr 0x0D#8) = true ∧ WellFormed (.ctlClr 0x0E#8) = false ∧ WellFormed (.clrUe 0x16#8) = false ∧
    WellFormed (.evtClear 0x40#8 0#64) = false := by decide

theorem test_wellformed_class : WellFormed (.memoryError ⟨12#4, 0#8, 0#32⟩ false) = true ∧
    WellFormed (.memoryError ⟨13#4, 0#8, 0#32⟩ false) = false := by decide

theorem test_wellformed_packet : WellFormed (.fportReceive 0#2 0#12 [0#8]) = true ∧ (∀ b : List Byte, 65536 < b.length →
    WellFormed (.fportReceive 0#2 0#12 b) = false) := by
  refine ⟨by decide, fun b h => ?_⟩
  simp only [WellFormed, decide_eq_false_iff_not]; omega

/-! ### States that meet the statements' hypotheses, one for each clause -/

theorem witness_StepRunsTheFrontCommand : ∃ s : State, s.pending = Instr.clkSlow :: [] ∧ Safety.Inv s :=
  ⟨{ idle with pending := [.clkSlow] }, rfl, by unfold Safety.Inv; decide⟩

theorem witness_EveryStepKeepsTheInvariant : Safety.Inv { idle with pending := [.clkSlow], mem := [(7, 1#8)] } := by
  unfold Safety.Inv; decide

def fenceOpen : Cmd := begun (cmd 0 (desc 0x30 [(0x20, 2, 2), (0x28, 4, 1)]))
def stampLate : Cmd := begun (cmd 1 (desc 0x31 [(0x20, 8, 0x1000), (0x28, 8, 0xABCD)]))

theorem witness_NopFenceStampRun :
    (∀ op ∈ [0x00, 0x30, 0x31], Ready (holding [cmd 0 (desc op)]) (key 0) (cmd 0 (desc op)) ∧ dOp (cmd 0 (desc op)).desc = op) ∧
    (Begun (holding [begun (cmd 0 (desc 0x30))]) (key 0) (begun (cmd 0 (desc 0x30))) ∧
      ∀ q < 16, bitOf (dNum (desc 0x30) 0x20 2) q = true → serialLt (rd idle (queRetiredCount q)) (dNum (desc 0x30) (0x24 + 4 * q) 4) = false) ∧
    (Begun (holding [fenceOpen]) (key 0) fenceOpen ∧ ∃ q < 16, bitOf (dNum fenceOpen.desc 0x20 2) q = true ∧
      serialLt (rd (holding [fenceOpen]) (queRetiredCount q)) (dNum fenceOpen.desc (0x24 + 4 * q) 4) = true) ∧
    (fenceOpen.q = 1 ∧ (queueOf (setQueue (holding [fenceOpen]) 1 ⟨.running, false, [], []⟩) 1).state = .running) ∧
    (Begun (holding [stampLate]) (key 1) stampLate ∧ ∀ e ∈ [stampLate], e.q = stampLate.q → serialLt e.seq stampLate.seq = false) ∧
    (Begun (holding [cmd 0 (desc 0), stampLate]) (key 1) stampLate ∧
      ∃ e ∈ [cmd 0 (desc 0), stampLate], e.q = stampLate.q ∧ serialLt e.seq stampLate.seq = true) := by
  unfold Ready Begun; decide +kernel

def divertCmd : Cmd := cmd 0 (desc 0x08 [(0x28, 4, 5), (0x2F, 1, 1)])

theorem witness_LoadwStagesAndDivertBinds :
    (∀ n ∈ [0, 1], let c := { cmd 0 (desc 0x01) with asked := n }
      Ready (holding [c]) (key 0) c ∧ dOp c.desc = 1 ∧ loadwReads c = 1) ∧
    (Ready (holding [divertCmd]) (key 0) divertCmd ∧ dOp divertCmd.desc = 8 ∧ gsPlane divertCmd.desc = true) ∧
    (let s := { holding [divertCmd] with diverts := List.replicate 16 ⟨1, 2, 3, 4, 5, 6⟩ };
      Ready s (key 0) divertCmd ∧ 16 ≤ s.diverts.length) := by
  unfold Ready; decide +kernel

def gclear (mode rows : Nat) : Cmd := cmd 0 (desc 0x07 [(0x20, 8, 0x10000), (0x28, 4, 64), (0x2C, 3, rows), (0x30, 3, 2), (0x33, 1, mode), (0x34, 1, 0xA)])

theorem makeRoom_stuck (s : State) (h : framesOver s = false ∨ victim s = none) : makeRoom s = s := by
  unfold makeRoom forN
  induction 512 with
  | zero => rfl
  | succ n ih =>
    rw [List.range_succ, List.foldl_append, ih]
    rcases h with h | h <;> simp [h]

/-- The GCLEAR that has latched its home format. -/
def opening (rows : Nat) : Cmd := { gclear 0 rows with aux := [(0, 0xA)] }
/-- 479 frames pinned by group 1, and 33 tiles of group 2 resident, each of them held by a fold. -/
def crowded (c : Cmd) : State :=
  { setGroup (setGroup (holding [c]) 1 { group22 with rows := 479 * 256, homeFmt := 0 }) 2 { group22 with rows := 64 * 256 } with
    tiles := (List.range 33).map (fun k => (tileKey 2 k, ⟨.resident, k, false, 5, false, 0⟩))
    folds := (List.range 33).map (fun k => ⟨0, false, key 0, 0, 2, k, 5, 0⟩) }

theorem witness_GclearEmptiesTheGroup :
    (∀ m ∈ [0, 1, 2], ∀ x ∈ [group22, groupFree], Ready (setGroup (holding [gclear m 2]) 0 x) (key 0) (gclear m 2) ∧ dOp (gclear m 2).desc = 7 ∧
      gclearMode (gclear m 2).desc = m ∧ (groupOf (setGroup (holding [gclear m 2]) 0 x) 0).state = x.state) ∧
    (group22.state ≠ .free ∧ groupFree.state = .free) ∧
    (let s := holding [opening 2]
     let x := openedGroup 0xA (opening 2).desc groupFree
     Ready s (key 0) (opening 2) ∧ roomStatus s 0 { x with state := .open } = stOK ∧
       framesOver (emptyGroup (setGroup s 0 x) 0 false) = false) ∧
    (let s := holding [opening (2 ^ 23 + 1)]
     Ready s (key 0) (opening (2 ^ 23 + 1)) ∧
       roomStatus s 0 { openedGroup 0xA (opening (2 ^ 23 + 1)).desc groupFree with state := .open } ≠ stOK) := by
  unfold Ready; decide +kernel

/-- A GCLEAR OPEN that has latched no home format. -/
def pinning : Cmd := { opening 2 with aux := [(0, 0)] }
def emptied : State := emptyGroup (setGroup (crowded pinning) 0 (openedGroup 0 pinning.desc groupFree)) 0 false


theorem witness_GclearEmptiesTheGroup_opens : framesOver (openRun (holding [opening 2]) (opening 2)) = false := by
  have h : framesOver (emptyGroup (setGroup (holding [opening 2]) 0 (openedGroup 0xA (opening 2).desc groupFree)) 0 false) = false := by decide +kernel
  show framesOver (makeRoom (emptyGroup (setGroup (holding [opening 2]) 0 (openedGroup 0xA (opening 2).desc groupFree)) 0 false)) = false
  rw [makeRoom_stuck _ (.inl h), h]

theorem witness_GclearEmptiesTheGroup_waits :
    Ready (crowded pinning) (key 0) pinning ∧ dOp pinning.desc = 7 ∧ gclearMode pinning.desc = 0 ∧
      roomStatus (crowded pinning) 0 { openedGroup 0 pinning.desc groupFree with state := .open } = stOK ∧
      framesOver (openRun (crowded pinning) pinning) = true := by
  refine ⟨by unfold Ready; decide +kernel, by decide, by decide, by decide +kernel, ?_⟩
  have h : framesOver emptied = true := by decide +kernel
  show framesOver (makeRoom emptied) = true
  rw [makeRoom_stuck emptied (.inr (by decide +kernel)), h]

/-- Memory with the bytes given at an address and zeros elsewhere. -/
def withMem (s : State) (a : Nat) (b : List Byte) : State :=
  { s with mem := s.mem ++ (b.mapIdx (fun i x => (a + i, x))).filter (fun p => p.2 != 0#8) }

/-- A latched GEN of 0 in group 0. -/
def latched (c : Cmd) : Cmd := { c with gens := [(0, 0)] }

/-- GSAVE and GRESTORE at 0x20000, with the flags of byte 0x2F and LIMIT. -/
def gsave (flags limit : Nat) : Cmd := latched (cmd 0 (desc 0x08 [(0x20, 8, 0x20000), (0x2F, 1, flags), (0x30, 8, limit)]))
def grestore (flags : Nat) : Cmd := cmd 0 (desc 0x09 [(0x20, 8, 0x20000), (0x2F, 1, flags)])

/-- The image of an empty group of one tile, with its digest; the first 40 bytes of a plane record of one FP32 row of zeros,
chosen so that its digest is 0. -/
def emptyImage : List Byte := imageHeader 0 group22 0 ++ natLE (crc64 (imageHeader 0 group22 0)) 8
def planeRec : List Byte := fill 0 [(0, 4, 0x504C4146), (4, 2, 1), (8, 2, 1), (0x18, 4, 0x29EF), (0x20, 8, 0xD0527DE82FA4)]



/-- The image in memory, and the directory full when asked. -/
def restoring (full : Bool) : State :=
  let s := withMem (holding [grestore 0]) 0x20000 emptyImage
  if full then setGroup (setGroup s 1 { group22 with rows := 2 ^ 14 * 256 }) 2 { group22 with rows := 2 ^ 14 * 256 } else s

def rowPlane : State := withMem (holding [grestore 1]) 0x20000 planeRec

def fullPreloads : State := { holding [grestore 1] with preloads := List.replicate 16 ⟨1, 2, 3, 4, 5, 6, []⟩ }

theorem witness_GroupImagesAreSavedAndRestored :
    (∀ l ∈ [135, 136], Ready (setGroup (holding [gsave 0 l]) 0 group22) (key 0) (gsave 0 l) ∧ gsPlane (gsave 0 l).desc = false ∧
      gsHome (gsave 0 l).desc = false ∧ groupBusy (setGroup (holding [gsave 0 l]) 0 group22) 0 = false ∧ group22.gen = genOf (gsave 0 l) 0) ∧
    (imageLen (imageTiles (setGroup (holding [gsave 0 136]) 0 group22) 0).length ≤ 136) ∧
    (135 < imageLen (imageTiles (setGroup (holding [gsave 0 135]) 0 group22) 0).length) ∧
    ({ group22 with gen := 1 }.gen ≠ genOf (gsave 0 136) 0) ∧
    (Ready (holding [grestore 0]) (key 0) (grestore 0) ∧ groupBusy (holding [grestore 0]) 0 = false ∧
      imageHeaderOk ((readView (holding [grestore 0]) (key 0) 7).bytes 0x20000 128) 0 = false) ∧
    (Ready (holding [grestore 1]) (key 0) (grestore 1) ∧ gsPlane (grestore 1).desc = true ∧ 0 < freeFrames (holding [grestore 1]) ∧
      planeRecordOk (tileRange groupFree) ((readView (holding [grestore 1]) (key 0) 7).bytes 0x20000 64) = false) ∧
    (Ready rowPlane (key 0) (grestore 1) ∧ planeRecordOk (tileRange (groupOf rowPlane 0)) (rowPlane.bytes 0x20000 64) = true) ∧
    (Ready fullPreloads (key 0) (grestore 1) ∧ 16 ≤ fullPreloads.preloads.length) := by
  unfold Ready; decide +kernel

theorem witness_GroupImagesAreSavedAndRestored_image : ∀ full ∈ [false, true], let s := restoring full
    let v := readView s (key 0) 7
    Ready s (key 0) (grestore 0) ∧ imageHeaderOk (v.bytes 0x20000 128) 0 = true ∧ groupBusy s 0 = false ∧
      imageTilesOk (imageGroup (v.bytes 0x20000 128) (groupOf s 0).gen) [] = true ∧ fieldAt (v.bytes 0x20000 128) 0x38 4 = 0 ∧
      v.num (0x20000 + (imageLen 0 - 8)) 8 = crc64 (v.bytes 0x20000 (imageLen 0 - 8)) ∧
      decide (roomStatus s 0 (imageGroup (v.bytes 0x20000 128) (groupOf s 0).gen) = stOK) = !full := by
  unfold Ready; decide +kernel

theorem witness_GroupImagesAreSavedAndRestored_frames : framesOver (restoreRead (readView (restoring false) (key 0) 7) (grestore 0)).1 = false := by
  unfold restoreRead restoreGroup
  rw [if_neg (by decide +kernel), if_neg (by decide +kernel), if_neg (by decide +kernel)]
  have h : fieldAt ((readView (restoring false) (key 0) 7).bytes (gsAddr (grestore 0).desc + 0) 128) 0x38 4 = 0 := by decide +kernel
  simp only [h]
  rw [makeRoom_stuck _ (.inl (by decide +kernel))]
  decide +kernel

theorem crc64_zeros (l : List Byte) (n : Nat) (h : crc64 l = 0) : crc64 (l ++ List.replicate n 0#8) = 0 := by
  unfold crc64 crcFrom at *
  rw [List.foldl_append, h]
  induction n with
  | zero => rfl
  | succ n ih => rw [List.replicate_succ, List.foldl_cons, show crcByte 0 0#8 = 0 by decide]; exact ih

theorem rowPlane_tail (i : Nat) (h : 40 ≤ i) : rowPlane.byte (0x20000 + i) = 0#8 := by
  have hm : ∀ p ∈ rowPlane.mem, p.1 < 0x20000 + 40 := by decide
  show memGet rowPlane.mem _ = _
  revert hm; generalize rowPlane.mem = m; intro hm
  induction m with
  | nil => rfl
  | cons p r ih =>
    have := hm p (by simp)
    simp only [memGet, tget] at *
    rw [if_neg (by omega)]
    exact ih fun q hq => hm q (by simp [hq])

theorem rowPlane_bytes (n : Nat) : rowPlane.bytes 0x20000 (40 + n) = rowPlane.bytes 0x20000 40 ++ List.replicate n 0#8 := by
  simp only [State.bytes, List.range_add, List.map_append, List.map_map]
  congr 1
  refine List.eq_replicate_iff.2 ⟨by simp, fun b hb => ?_⟩
  obtain ⟨i, -, rfl⟩ := List.mem_map.1 hb
  exact rowPlane_tail (40 + i) (by omega)

theorem witness_GroupImagesAreSavedAndRestored_digest : rowPlane.num (0x20000 + 1088) 8 = crc64 (rowPlane.bytes 0x20000 1088) := by
  rw [rowPlane_bytes 1048, crc64_zeros _ _ (by decide +kernel)]
  decide

def flushing (gen : Nat) : State :=
  { setGroup (holding [gsave 2 0]) 0 { group22 with gen := gen } with tiles := [(0, ⟨.resident, 0, true, 5, false, 0⟩)] }

theorem witness_FlushWritesTheHomeBuffer :
    (∀ gen ∈ [0, 1], Ready (flushing gen) (key 0) (gsave 2 0) ∧ dOp (gsave 2 0).desc = 8 ∧ gsPlane (gsave 2 0).desc = false ∧
      gsHome (gsave 2 0).desc = true ∧ groupBusy (flushing gen) (gsGroup (gsave 2 0).desc) = false) ∧
    ((groupOf (flushing 0) 0).gen = genOf (gsave 2 0) 0 ∧ 8 * group22.cols ≤ group22.homePitch ∧ groupTiles group22 = 1 ∧
      (tileOf (flushing 0) 0 0).state = .resident) ∧
    (groupOf (flushing 1) 0).gen ≠ genOf (gsave 2 0) 0 := by
  unfold Ready; decide +kernel

/-- A FOLD of one binary64 entry into entry (0, 0) of tile 0 with stamp 5. -/
def fold1 : Cmd := latched (cmd 0 (desc 0x06 [(8, 4, 5), (0x20, 8, 0x30000), (0x28, 8, 8), (0x30, 4, 1), (0x34, 4, 1), (0x3C, 1, 0xA)]))
def folding (c : Cmd) (x : Group) (stamp : Nat) : State :=
  { setGroup (holding [c]) 0 x with tiles := [(0, ⟨.resident, 0, true, stamp, false, 0⟩)] }

theorem witness_FoldAddsOnceByStamp :
    (∀ x ∈ [group22, { group22 with state := .torn, torn := 5 }, { group22 with state := .torn, torn := 4 }, { group22 with state := .broken },
        { group22 with gen := 255 }], ∀ stamp ∈ [4, 5, 6],
      let s := folding fold1 x stamp
      Ready s (key 0) fold1 ∧ dOp fold1.desc = 6 ∧ foldTurn s fold1 0 = true ∧ groupBusy s 0 = false ∧ groupTiles x = 1 ∧
        frameFor s 0 0 = true ∧ foldRegion (readView s (key 0) 7) fold1.desc x 0 ≠ []) ∧
    (group22.gen = genOf fold1 0 ∧ group22.state = .open ∧ dStamp fold1.desc = 5 ∧ foldGroup fold1.desc = 0) ∧
    ({ group22 with gen := 255 }.gen ≠ genOf fold1 0) := by
  unfold Ready; decide +kernel

def ledgerCmd (op : Nat) (first n : Nat) : Cmd := cmd 0 (desc 0x32 [(0x20, 8, 0x30000), (0x28, 1, op), (0x2A, 2, first), (0x2C, 2, n)])

/-- A list of one tag word: slot 5, generation 0. -/
def listed (c : Cmd) : State := { holding [c] with mem := [(0x30000, 5#8)] }

theorem witness_LedgerOperationsActOnTheSelectedSlots :
    (∀ op < 5, Ready (holding [ledgerCmd op 0xFFF 1]) (key 0) (ledgerCmd op 0xFFF 1) ∧ dOp (ledgerCmd op 0xFFF 1).desc = 0x32 ∧
      ledgerOp (ledgerCmd op 0xFFF 1).desc = op ∧ ledgerList (ledgerCmd op 0xFFF 1).desc = false) ∧
    (∀ op < 5, Ready (listed (ledgerCmd (16 + op) 0 1)) (key 0) (ledgerCmd (16 + op) 0 1) ∧ ledgerOp (ledgerCmd (16 + op) 0 1).desc = op ∧
      ledgerList (ledgerCmd (16 + op) 0 1).desc = true ∧ ledgerCount (ledgerCmd (16 + op) 0 1).desc = 1 ∧
      tagSlot ((readView (listed (ledgerCmd (16 + op) 0 1)) (key 0) 7).num 0x30000 4) = 5) := by
  unfold Ready; decide +kernel

theorem witness_LedgerDumpsAndLoads :
    (∀ op ∈ [5, 6], Ready (holding [ledgerCmd op 0xFFF 1]) (key 0) (ledgerCmd op 0xFFF 1) ∧ ledgerOp (ledgerCmd op 0xFFF 1).desc = op ∧
      slotBytesOk ((readView (holding [ledgerCmd op 0xFFF 1]) (key 0) 7).bytes 0x30000 32) = true) ∧
    (let s := { holding [ledgerCmd 6 0 2] with mem := [(0x30021, 3#8)] };
      Ready s (key 0) (ledgerCmd 6 0 2) ∧ ∃ i < 2, slotBytesOk ((readView s (key 0) 7).bytes (0x30000 + 32 * i) 32) = false) := by
  unfold Ready; decide +kernel

def compressCmd : Cmd := cmd 0 (desc 0x11 [(0x20, 8, 0x100), (0x28, 8, 0x200), (0x30, 8, 0x400), (0x38, 8, 0)])

/-- The command with a part on core 0 that failed with MPORT_ERROR. -/
def failed (c : Cmd) : Cmd := noteErr c 0 stMportError

theorem witness_FailedPartsAbort :
    (let s := holding [failed compressCmd];
      findCmd s (key 0) = some (failed compressCmd) ∧ runnable s (failed compressCmd) = true ∧ (failed compressCmd).errs ≠ [] ∧
        dOp (failed compressCmd).desc = 0x11 ∧
        unitTurn s (failed compressCmd) (isOp 0x11) = true ∧ s.ras.damage = [] ∧ s.ras.lost = [] ∧ s.wbuf = [] ∧ s.rbuf = []) ∧
    (∀ st ∈ [GState.open, .torn], let s := folding (failed fold1) { group22 with state := st } 4
      findCmd s (key 0) = some (failed fold1) ∧ runnable s (failed fold1) = true ∧ dOp (failed fold1).desc = 6 ∧
        foldTurn s (failed fold1) 0 = true ∧ groupBusy s 0 = false ∧ frameFor s 0 0 = true ∧ (groupOf s 0).gen = genOf (failed fold1) 0 ∧
        (groupOf s 0).state = st) := by
  decide +kernel

/-- A product of one row, one column and one K, whose operands and result have layout records at 0x100, 0x200 and 0x300. -/
def product (op : Nat) : Cmd :=
  { cmd 0 (desc op [(0x20, 8, 0x100), (0x28, 8, 0x200), (0x30, 8, 0x300), (0x50, 4, 1), (0x54, 3, 1), (0x58, 3, 1)]) with outRec := 0x300 }

def plain1 : Cmd := { product 2 with items := [⟨.stat, 0, 0, 0, 0, .todo⟩] }

/-- The dense FP32 layout records of one element at 0x100, 0x200 and 0x300, of the arrays at 0, 0x44 and 0x1000: 2.0 and 3.0. -/
def dense : List Host.Cell :=
  [(0x03, 0x40#8), (0x46, 0x40#8), (0x47, 0x40#8), (0x10A, 2#8), (0x10B, 1#8), (0x110, 1#8), (0x114, 1#8), (0x200, 0x44#8), (0x20A, 2#8), (0x20B, 1#8),
    (0x210, 1#8), (0x214, 1#8), (0x301, 0x10#8), (0x30A, 2#8), (0x30B, 2#8), (0x310, 1#8), (0x314, 1#8)]

/-- The one tile of a product done, with the outputs given waiting. -/
def finished (op : Nat) (aux : List (Nat × Nat)) : Cmd :=
  { product op with items := [⟨.stat, 0, 0, 0, 0, .done⟩], screened := 1, aux := aux }
def finishing (c : Cmd) : State := { working [c] with mem := dense }

theorem witness_ProductsRunToTheirEnd :
    (∀ op ∈ [2, 3, 4, 5], let s := working [product op]
      findCmd s (key 0) = some (product op) ∧ dOp (product op).desc = op ∧ s.wbuf = [] ∧ s.rbuf = [] ∧ s.ras.damage = []) ∧
    (∀ op ∈ [2, 3, 4, 5], TilesDone (finishing (finished op [])) (key 0) (finished op []) ∧
      (op = 4 → pStores (finished op []).desc = false) ∧ storeRun (finishing (finished op [])) (finished op []) = [] ∧
      outWaiting (finished op []) = []) ∧
    (let c := finished 2 [(auxKey 0 0, 0x3F8000000000)]
     let s := finishing c
     let l := layoutAt s c.outRec
     TilesDone s (key 0) c ∧ pStores c.desc = true ∧ c.hoff = false ∧ disjointLayout l = true ∧ l.mx = false ∧ axisRow l 0 = false ∧
       layoutBits l = 32 ∧ tableWf 0 c.aux = true ∧ c.aux.filter (fun p => p.2 < 2 ^ 48) = [(auxKey 0 0, 0x3F8000000000)]) := by
  unfold TilesDone Ready; refine ⟨?_, ?_, ?_⟩ <;> decide +kernel

/-- A PLAIN of one element alone on array 0, its operands held and its row screened. -/
def plainReady : Cmd := { plain1 with screened := 1 }
def six : State :=
  { setArray (working [plainReady]) 0 { arrayReset with on := true } with mem := dense, staged := [⟨key 0, 0, 1, 4, []⟩, ⟨key 0, 0, 7, 4, []⟩] }

theorem witness_PlainStoresItsCanonicalSum :
    let s := six
    let c := plainReady
    Ready s (key 0) c ∧ s.cmds = [c] ∧ dOp c.desc = 2 ∧ c.items = [⟨.stat, 0, 0, 0, 0, .todo⟩] ∧ c.pack = [] ∧ c.guard = none ∧ c.sieve = [] ∧
      c.trapRow = none ∧ c.aux = [] ∧ c.lat.policy = 0 ∧ c.hoff = false ∧ c.status = 0 ∧ dTags c.desc = 0 ∧ pSform c.desc = false ∧
      pToGroup c.desc = false ∧ pM c.desc = 1 ∧ pNExt c.desc = 1 ∧ pKExt c.desc = 1 ∧ c.screened = 1 ∧ arrayPower s = true ∧
      failedArray s 0 = false ∧ arrayOf s 0 = { arrayReset with on := true } ∧ (∀ p ∈ s.arrays, p.1 = 0) ∧
      s.folds = [] ∧ s.hod = [] ∧ s.images = [] ∧ s.mreqs = [] ∧ s.mwait = [] ∧
      (∀ b ∈ [(⟨1, 0, 0, 0⟩ : Blk), ⟨7, 0, 0, 0⟩], blkAsked s c 0 b = true) ∧
      (let l := layoutAt s c.outRec; disjointLayout l = true ∧ l.mx = false ∧ axisRow l 0 = false ∧ layoutBits l = 32) := by
  unfold Ready; decide +kernel

/-- A PLAIN whose row tags stand at 0x500. -/
def tagged (seq : Nat) : Cmd := cmd seq (desc 0x02 [(0x18, 8, 0x500), (0x50, 4, 1), (0x54, 3, 1), (0x58, 3, 1)])
def husking (seq : Nat) : Cmd := { tagged seq with lat := { (tagged seq).lat with policy := 1 } }

/-- Slot 1 of the ledger is CANCELLED, and the tag of row 0 names it; or a slot whose generation has moved on; or the tag has a reserved bit. -/
def cancelled : State := { working [tagged 1] with ledger := [(1, { lslotReset with state := 1 })], mem := [(0x500, 1#8)] }
def passedOn : State := { working [tagged 1] with ledger := [(1, { lslotReset with gen := 1 })], mem := [(0x500, 1#8)] }
def misTagged : State := { working [tagged 1] with mem := [(0x502, 0x10#8)] }
/-- The streamed operand's one element is a NaN. -/
def nanRow : Cmd := { husking 1 with desc := (product 2).desc }
def nanState : State := { working [nanRow] with
  mem := [(0x02, 0xC0#8), (0x03, 0x7F#8), (0x10A, 2#8), (0x10B, 1#8), (0x110, 1#8), (0x114, 1#8)] }

theorem witness_LedgerViewsScreenRows :
    (rowPart (tagged 1) 0 = true ∧ tagReserved (tagOf misTagged (tagged 1).desc 0) = true) ∧
    (tagSlot (tagOf cancelled (tagged 1).desc 0) ≠ 0xFFF ∧ (tget lslotReset (viewOf cancelled (tagged 1)) 1).state = 1) ∧
    (tagGen (tagOf passedOn (tagged 1).desc 0) ≠ (tget lslotReset (viewOf passedOn (tagged 1)) 1).gen) ∧
    (nanRow.lat.policy = 1 ∧ rowPart nanRow 0 = true ∧ ∃ op ∈ screenedOps nanRow.desc, rowBad nanState nanRow.desc op 0 ≠ []) ∧
    (dTags plain1.desc = 0 ∧ plain1.lat.policy = 0 ∧ rowPart plain1 0 = true) ∧
    (Ready (working [tagged 1]) (key 1) (tagged 1) ∧ takesView (tagged 1).desc = true ∧ (tagged 1).view = none ∧
      viewReady (working [tagged 1]) (tagged 1) = true) ∧
    (Ready (working [husking 0, tagged 1]) (key 1) (tagged 1) ∧ viewReady (working [husking 0, tagged 1]) (tagged 1) = false) := by
  unfold Ready; decide +kernel

def sieveCmd : Cmd := cmd 0 (desc 0x10 [(0x20, 8, 0x800)])

/-- The SIEVE, and the next command of its queue. -/
def sieving (d : List Byte) : State := working [sieveCmd, cmd 1 d]
def drainingSieve : State := setQueue (working [sieveCmd]) 1 ⟨.draining, false, [], []⟩
/-- A product with WAIT. -/
def waitingProduct : List Byte := desc 2 [(1, 1, 1), (0x50, 4, 1)]
/-- A guarded PLAIN of one row and `n` columns, in a phase, and the predictor's blocks of its first tile. -/
def guarded (p : Phase) (n : Nat) : Cmd :=
  { cmd 1 (desc 2 [(0x20, 8, 0x100), (0x28, 8, 0x200), (0x30, 8, 0x300), (0x50, 4, 1), (0x54, 3, n), (0x58, 3, 1)]) with
    guard := some (key 0), phase := p, screened := 1, items := [⟨.stat, 0, 0, 0, 0, .todo⟩, ⟨.stat, 0, 1, 0, 1, .todo⟩] }
def deciding (c : Cmd) : State :=
  { working [begun sieveCmd, c] with staged := [⟨key 1, 0, (⟨1, 63, 0, 0⟩ : Blk).code, 0, []⟩, ⟨key 1, 0, (⟨7, 63, 0, 0⟩ : Blk).code, 0, []⟩] }

theorem witness_SieveGuardsAndReports :
    (∀ s ∈ [sieving (product 2).desc, sieving (desc 0), sieving waitingProduct, working [sieveCmd], drainingSieve],
      findCmd s (key 0) = some sieveCmd ∧ runnable s sieveCmd = true ∧ dOp sieveCmd.desc = 0x10 ∧ s.wbuf = [] ∧ s.rbuf = []) ∧
    (nextDesc (sieving (product 2).desc) sieveCmd = some (product 2).desc ∧ dOp (product 2).desc = 2 ∧ dPack (product 2).desc = false ∧
      dWait (product 2).desc = false) ∧
    (nextDesc (sieving (desc 0)) sieveCmd = some (desc 0) ∧ dOp (desc 0) = 0) ∧
    (nextDesc (sieving waitingProduct) sieveCmd = some waitingProduct ∧ dWait waitingProduct = true) ∧
    (nextDesc drainingSieve sieveCmd = none ∧ (queueOf drainingSieve sieveCmd.q).state = .draining) ∧
    (nextDesc (working [sieveCmd]) sieveCmd = none ∧ (queueOf (working [sieveCmd]) sieveCmd.q).state ≠ .draining) ∧
    (∀ c ∈ [guarded .started 1, guarded .started 257, guarded .ended 1, { guarded .started 1 with trapRow := some (0, 0) }],
      findCmd (deciding c) (key 0) = some (begun sieveCmd) ∧ unitsRun (deciding c) = true ∧ (begun sieveCmd).phase = .begun ∧
        dNum (begun sieveCmd).desc 0x28 8 = 0 ∧ (deciding c).wbuf = [] ∧ (deciding c).rbuf = [] ∧ (deciding c).ras.damage = [] ∧
        (deciding c).ras.lost = [] ∧ (deciding c).cmds.find? (fun c => c.guard == some (begun sieveCmd).key) = some c ∧
        findCmd (deciding c) c.key = some c ∧ c.key ≠ (begun sieveCmd).key ∧ c.errs = []) ∧
    (∀ n ∈ [1, 257], decideReady (deciding (guarded .started n)) (guarded .started n) = true) ∧
    ((sieveGrid (guarded .started 1)).2 = 1 ∧ (sieveGrid (guarded .started 257)).2 = 2) := by
  refine ⟨?_, ?_, ?_, ?_, ?_, ?_, ?_, ?_, ?_⟩ <;> decide +kernel

theorem witness_CompressWritesItsTable :
    Ready (holding [compressCmd]) (key 0) compressCmd ∧ dOp compressCmd.desc = 0x11 ∧
      unitTurn (holding [compressCmd]) compressCmd (isOp 0x11) = true := by
  unfold Ready; decide +kernel

/-- A GATHER or SCATTER of `n` dense rows, one column and two table rows, its indices at 0x900, under an index policy. -/
def sca (op mode n policy : Nat) : Cmd :=
  let c := latched (cmd 0 (desc op [(0x20, 8, 0x100), (0x28, 8, 0x2000), (0x30, 8, 4), (0x38, 8, 0x900), (0x40, 4, n), (0x44, 4, 2), (0x48, 2, 1), (0x4C, 1, mode)]))
  { c with lat := { c.lat with idxPolicy := policy } }
def indexed (c : Cmd) (i : Byte) : State := { setGroup (holding [c]) 0 group22 with mem := [(0x900, i)] }
/-- The same with a write of the window before not acknowledged. -/
def waitingWrite (c : Cmd) : State := { indexed c 1 with mreqs := [⟨0, 0, false, true, 0x2000, 4, [], .cmdWrite c.key 7⟩] }

/-- The same with the reads of its unit made up to a count. -/
def asked (n : Nat) (c : Cmd) : Cmd := { c with asked := n }

theorem witness_GatherAndScatterRun :
    (∀ o ∈ [(0x18, 0), (0x19, 0), (0x19, 1), (0x19, 3)], ∀ n < 4, let c := asked n (sca o.1 o.2 1 0)
      Ready (indexed c 1) (key 0) c ∧ scaTurn (indexed c 1) c = true ∧ dOp c.desc = o.1 ∧ c.window = 0 ∧ c.lat.policy ≠ 2 ∧
        gAccum c.desc = (o.2 != 0) ∧ gToGroup c.desc = (o.2 == 3) ∧ canScreen (indexed c 1) c = true ∧
        writesPending (indexed c 1) c.key = false ∧ scaCommits (indexed c 1) c = true) ∧
    (let c := asked 1 (sca 0x18 0 1 2)
     c.lat.idxPolicy = 2 ∧ idxFault (readView (indexed c 1) (key 0) 7) c.desc = none ∧
       idxFault (readView (indexed c 2) (key 0) 7) c.desc = some 0) ∧
    (let c := { asked 2 (sca 0x18 0 1 0) with desc := desc 0x18 [(8, 4, 1), (0x18, 8, 0x500), (0x40, 4, 1)] }
     ∀ e ∈ [husking 0], Ready (working [{ e with key := key 0 }, { c with key := key 1 }]) (key 1) { c with key := key 1 } ∧
       scaTurn (working [{ e with key := key 0 }, { c with key := key 1 }]) { c with key := key 1 } = true ∧
       canScreen (working [{ e with key := key 0 }, { c with key := key 1 }]) { c with key := key 1 } = false) ∧
    (∀ n ∈ [2, 3], let c := asked n (sca 0x19 1 1 0)
     Ready (waitingWrite c) (key 0) c ∧ gAccum c.desc = true ∧ writesPending (waitingWrite c) c.key = true ∧ scaCommits (waitingWrite c) c = false) ∧
    (let c := asked 3 (sca 0x19 0 1 0)
     gN c.desc = 1 ∧ gCols c.desc = 1 ∧ gTfmt c.desc = 0 ∧ dTags c.desc = 0 ∧ c.lat.policy = 0 ∧
       idxRow c.lat.idxPolicy (gTrows c.desc) (idxAt (readView (indexed c 1) (key 0) 7) c.desc 0) = some 1) := by
  unfold Ready; refine ⟨?_, ?_, ?_, ?_, ?_⟩ <;> decide +kernel

theorem witness_WindowsRunOneByOne :
    (∀ n ∈ [16384, 16385], ∀ k ∈ [0, 3], let c := asked k (sca 0x18 0 n 0)
      Ready (holding [c]) (key 0) c ∧ scaTurn (holding [c]) c = true ∧ writesPending (holding [c]) (key 0) = false ∧ scaCommits (holding [c]) c = true ∧
        scaWindows c.desc = (if n = 16384 then 1 else 2)) ∧
    (let c := asked 3 (sca 0x18 0 1 0)
     Ready (waitingWrite c) (key 0) c ∧ scaTurn (waitingWrite c) c = true ∧ writesPending (waitingWrite c) (key 0) = true) := by
  unfold Ready; refine ⟨?_, ?_⟩ <;> decide +kernel

/-- A SEND or RECV in a mode, of a job of one tile and the number of ranks given. -/
def job (shards : Nat) : List Byte := fill 0 [(6, 2, 7), (8, 2, shards), (0x10, 4, 1), (0x14, 4, 1), (0x18, 4, 1)]
def rsu (op mode shards : Nat) : Cmd :=
  { latched (cmd 0 (desc op [(0x20, 8, 0x600), (0x33, 1, mode)])) with recs := [(0x600, job shards)] }
def rsuState (op mode shards gen : Nat) : State := setGroup (holding [rsu op mode shards]) 0 { group22 with gen := gen }

/-- A SEND PARAMS behind an APPLY of its queue. -/
def behindApply : Cmd := { rsu 0x20 1 2 with key := key 1 }

theorem witness_SendsHandOverTheirPackets :
    (∀ m ∈ [0, 1, 2], ∀ n ∈ [1, 2], ∀ gen ∈ [0, 1], ∀ k ∈ [0, 1], let c := asked k (rsu 0x20 m n)
      let s := setGroup (holding [c]) 0 { group22 with gen := gen }
      Ready s (key 0) c ∧ dOp c.desc = 0x20 ∧ rsMode c.desc = m ∧ (jobOf (readView s (key 0) 7) c).shards = n ∧
        rsEmpty c.desc = false ∧ (jobOf (readView s (key 0) 7) c).mine = 0 ∧ (groupOf s 0).gen = gen ∧ groupBusy s 0 = false ∧
        groupBusy s 64 = false ∧ s.txState = [] ∧ applyBefore s c = false) ∧
    genOf (rsu 0x20 0 2) 0 = 0 ∧
    (let s := holding [cmd 0 (desc 0x22), behindApply]
     Ready s (key 1) behindApply ∧ applyBefore s behindApply = true) := by
  unfold Ready; refine ⟨?_, ?_, ?_⟩ <;> decide +kernel

theorem witness_RecvOpensItsContext :
    (∀ m < 4, ∀ n ∈ [1, 2], let s := rsuState 0x21 m n 0
      Ready s (key 0) (rsu 0x21 m n) ∧ dOp (rsu 0x21 m n).desc = 0x21 ∧ rsMode (rsu 0x21 m n).desc = m ∧ ctxTurn s (rsu 0x21 m n) = true ∧
        (jobOf (readView s (key 0) 7) (rsu 0x21 m n)).shards = n) ∧
    (∀ m ∈ [0, 2, 3], Begun (holding [begun (rsu 0x21 m 2)]) (key 0) (begun (rsu 0x21 m 2)) ∧ (holding [begun (rsu 0x21 m 2)]).rxOpen = []) ∧
    (let s := wr (rsuState 0x21 0 2 0) rsuRecvWdogLimitMs 1;
      findCmd s (key 0) = some (rsu 0x21 0 2) ∧ unitsRun s = true ∧ (rsu 0x21 0 2).window = 0 ∧ rd s rsuRecvWdogLimitMs ≠ 0) ∧
    (rd (wr (rsuState 0x21 0 2 0) rsuRecvWdogLimitMs 0) rsuRecvWdogLimitMs = 0) := by
  unfold Ready Begun; decide +kernel

def packet (vc : Nat) : TxPacket := ⟨0, vc, false, true, 5, key 0, 0, []⟩
def sending : Cmd := begun (rsu 0x20 0 2)
/-- A SEND that waits for the status of its one packet, ID 5 on port 0. -/
def awaiting : State := { holding [sending] with txAwait := [packet 1], txState := [⟨key 0, 0, 1, false⟩] }

theorem witness_PacketsLeaveAndAreAnswered :
    (unitsRun idle = true ∧ ∀ u ∈ idle.txq, u.port ≠ 0) ∧
    (let s := { holding [sending] with txq := [packet 1, packet 0] };
      unitsRun s = true ∧ (∃ u ∈ s.txq, u.port = 0) ∧ (s.txAwait.filter (fun u => u.port == 0)).length < 4096 ∧
        ∃ u ∈ s.txq, u.port = 0 ∧ u.vc = 0) ∧
    (awake awaiting = true ∧ portClock awaiting = true ∧ awaiting.txAwait.find? (fun t => t.port == 0 && t.pid == 5) = some (packet 1) ∧
      findCmd awaiting (packet 1).key = some sending ∧ sending.phase = .begun ∧ dOp sending.desc = 0x20 ∧ sending.errs = [] ∧
      awaiting.txState = [⟨(packet 1).key, (packet 1).num, 1, false⟩]) ∧
    (awaiting.txAwait.find? (fun t => t.port == 0 && t.pid == 6) = none ∧ awaiting.quiet = 0) ∧
    ({ awaiting with quiet := 1 }.quiet ≠ 0) := by
  decide +kernel

/-- A PARAMS packet of job 7 from a source with a sequence number, of one packet. -/
def params (seq : Nat) : List Byte := fill 0 [(4, 1, 3), (6, 2, 7), (0xE, 2, 1), (0x10, 4, seq), (0x14, 4, 2), (0x38, 8, 0)]
def receiving (src : List RxSource) : State :=
  { holding [begun (rsu 0x21 1 2)] with rxOpen := [⟨key 0, 3, 7, 0, 0, [], src, []⟩] }

theorem witness_PacketsAreAnswered :
    (packetBad idle [] = true) ∧ (packetBad idle (params 0) = false ∧ idle.rxOpen = [] ∧ idle.rxClosed = []) ∧
    (let s := { idle with rxClosed := [(3 * 2 ^ 16 + 7, 0, 0)] };
      s.rxClosed.any (fun x => rxMatches (x.1 / 2 ^ 16) (x.1 % 2 ^ 16) x.2.1 x.2.2 (params 0)) = true) ∧
    (∀ src ∈ [[], [⟨1, 2, [(1, [])], 0, 0, false⟩]], unitsRun (receiving src) = true ∧ packetBad (receiving src) (params 1) = false ∧
      (receiving src).rxOpen.find? (fun x => rxMatches x.kind x.job x.step x.rank (params 1)) = some ⟨key 0, 3, 7, 0, 0, [], src, []⟩ ∧
      findCmd (receiving src) (key 0) = some (begun (rsu 0x21 1 2)) ∧ (receiving src).ras.damage = [] ∧ (receiving src).ras.lost = []) ∧
    (hSrc (params 1) = 1 ∧ hNpkt (params 1) = 2 ∧ hSeq (params 1) = 1) := by
  decide +kernel

/-- A snapshot image at 0x100000 with no parameters, no ledger, no groups and no planes: its header, the start of CONFIG with a first
word chosen so that CONFIG's digest is 0, and the four empty sections. -/
def imageCells : List Host.Cell :=
  [(0x100000, 0x46#8), (0x100001, 0x50#8), (0x100002, 0x4E#8), (0x100003, 0x53#8), (0x100004, 0x01#8), (0x100028, 0x50#8),
    (0x100029, 0x21#8), (0x10002A, 0x04#8), (0x100048, 0x37#8), (0x100049, 0x5C#8), (0x10004A, 0x0B#8), (0x10004B, 0xC9#8),
    (0x10004C, 0x71#8), (0x10004D, 0x49#8), (0x10004E, 0xF4#8), (0x10004F, 0x7E#8), (0x100050, 0x43#8), (0x100051, 0xF3#8),
    (0x100052, 0x9B#8), (0x100053, 0xD1#8), (0x100054, 0x78#8), (0x100055, 0x68#8), (0x100056, 0x8E#8), (0x100057, 0x33#8),
    (0x100080, 0x01#8), (0x100084, 0x01#8), (0x100088, 0x90#8), (0x100089, 0x20#8), (0x10008A, 0x04#8), (0x100090, 0x19#8),
    (0x100091, 0x6F#8), (0x100092, 0xF0#8), (0x100093, 0xFF#8), (0x100094, 0x4E#8), (0x100095, 0x96#8), (0x100096, 0x24#8),
    (0x100097, 0xA8#8), (0x142110, 0x02#8), (0x142118, 0x10#8), (0x142120, 0x03#8), (0x142128, 0x10#8), (0x142130, 0x04#8),
    (0x142138, 0x10#8), (0x142140, 0x05#8), (0x142148, 0x10#8)]

/-- RESTORE of the image at an address, with DATA_STEP. -/
def restore (addr step : Nat) : Cmd := cmd 0 (desc 0x29 [(0x20, 8, addr), (0x3C, 4, step)])
def reading : Cmd := asked 1 (restore 0x100000 1)
def withImage : State := { holding [reading] with mem := imageCells }

theorem withImage_gap (i : Nat) (h : 24 ≤ i) (h' : i < 270480) : withImage.byte (0x100080 + i) = 0#8 := by
  have hm : ∀ p ∈ withImage.mem, p.1 < 0x100080 + 24 ∨ 0x100080 + 270480 ≤ p.1 := by decide +kernel
  show memGet withImage.mem _ = _
  revert hm; generalize withImage.mem = m; intro hm
  induction m with
  | nil => rfl
  | cons p r ih =>
    have := hm p (by simp)
    simp only [memGet, tget] at *
    rw [if_neg (by omega)]
    exact ih fun q hq => hm q (by simp [hq])

theorem withImage_bytes (n m : Nat) (h : 24 + n ≤ 270480) :
    withImage.bytes 0x100080 (24 + n + m) = withImage.bytes 0x100080 24 ++ List.replicate n 0#8 ++ withImage.bytes (0x100080 + (24 + n)) m := by
  simp only [State.bytes, List.range_add, List.map_append, List.map_map]
  congr 1
  · congr 1
    refine List.eq_replicate_iff.2 ⟨by simp, fun b hb => ?_⟩
    obtain ⟨i, hi, rfl⟩ := List.mem_map.1 hb
    exact withImage_gap (24 + i) (by omega) (by have := List.mem_range.1 hi; omega)
  · exact List.map_congr_left fun i _ => congrArg withImage.byte (by simp only; omega)

theorem withImage_digest : crc64 (withImage.bytes 0x100080 270544) = 0x7ef44971c90b5c37 := by
  have h : withImage.bytes 0x100080 270544 = _ := withImage_bytes 270456 64 (by omega)
  have hz : crc64 (withImage.bytes 0x100080 24 ++ List.replicate 270456 0#8) = 0 := crc64_zeros _ _ (by decide +kernel)
  rw [h]
  unfold crc64 crcFrom at *
  rw [List.foldl_append, hz]
  decide +kernel

theorem witness_RestoreChecksThenWrites_image : imageOk withImage (restore 0x100000 1).desc = true := by
  have hl : fieldAt (imgAt withImage (restore 0x100000 1).desc 0 128) 0x28 8 = 270672 := by decide +kernel
  have hd : crc64 (imgAt withImage (restore 0x100000 1).desc 128 (270672 - 128)) = 0x7ef44971c90b5c37 := withImage_digest
  unfold imageOk
  simp only [hl, hd, Bool.and_eq_true]
  decide +kernel

theorem witness_RestoreChecksThenWrites :
    (∀ a ∈ [(0x100000, 1), (0, 0), (0, 1)], Ready (holding [restore a.1 a.2]) (key 0) (restore a.1 a.2) ∧
      dOp (restore a.1 a.2).desc = 0x29 ∧ snAddr (restore a.1 a.2).desc = a.1 ∧ rsDataStep (restore a.1 a.2).desc = a.2) ∧
    (fieldAt ((readView (holding [restore 0x100000 1]) (key 0) 7).bytes 0x100000 128) 0 4 ≠ 0x534E5046) ∧
    (let s := { holding [restore 0x100000 1] with mem := imageCells }
     let h := (readView s (key 0) 7).bytes 0x100000 128
     Ready s (key 0) (restore 0x100000 1) ∧ fieldAt h 0 4 = 0x534E5046 ∧ fieldAt h 4 2 = 1 ∧ fieldAt h 0x50 8 = crc64 (h.take 0x50)) ∧
    (Ready (holding [reading]) (key 0) reading ∧ restoreFail (readView (holding [reading]) (key 0) 7) reading ≠ stOK) ∧
    (Ready withImage (key 0) reading ∧ restoreFail (readView withImage (key 0) 7) reading = stOK) := by
  refine ⟨?_, ?_, ?_, ?_, ?_, ?_⟩
  · unfold Ready; decide +kernel
  · decide +kernel
  · unfold Ready; decide +kernel
  · unfold Ready; decide +kernel
  · unfold Ready; decide +kernel
  · have hv : readView withImage (key 0) 7 = withImage := rfl
    rw [hv]
    unfold restoreFail
    simp only [show reading.desc = (restore 0x100000 1).desc from rfl, witness_RestoreChecksThenWrites_image]
    decide +kernel

/-- An APPLY with an optimizer code, of group 0. -/
def apply (opt : Nat) : Cmd := latched (cmd 0 (desc 0x22 [(0x20, 8, 0x600), (0x31, 1, opt)]))
def applying (opt gen : Nat) : State := setGroup (holding [apply opt]) 0 { group22 with gen := gen }
/-- An APPLY COPY that has read its parameter record, its job record and the layout record at 0x300 of the staged copy. -/
def applyRead : Cmd := { apply 4 with recs := [(0x300, zeros 64), (0x600, fill 0 [(0x10, 8, 0x700)]), (0x700, fill 0 [(0x38, 8, 0x300)])] }

theorem witness_ApplyWritesStagedCopies :
    (∀ opt ∈ [0, 4], ∀ gen ∈ [0, 1], Ready (applying opt gen) (key 0) (apply opt) ∧ dOp (apply opt).desc = 0x22 ∧ apOpt (apply opt).desc = opt ∧
      groupBusy (applying opt gen) 0 = false ∧ unitTurn (applying opt gen) (apply opt) (applyReady (applying opt gen)) = true ∧
      apGroup (apply opt).desc = 0 ∧ (groupOf (applying opt gen) 0).gen = gen ∧ genOf (apply opt) 0 = 0) ∧
    (let s := holding [applyRead]
     let v := readView s (key 0) 7
     Ready s (key 0) applyRead ∧ apOpt applyRead.desc = 4 ∧ unitTurn s applyRead (applyReady s) = true ∧
      (∃ x ∈ s.cmds, (tfind x.recs ((applyJob v applyRead).wrec 1)).isSome = true) ∧ (stagedCopy v (applyJob v applyRead)).mx = false) := by
  unfold Ready; decide +kernel

/-- COMMIT or ABANDON of a step; a COMMIT expects one APPLY and, with bit 0 of `flags`, no poisoned entry. -/
def closing (op step flags : Nat) : Cmd := cmd 1 (desc op [(0xC, 4, step), (0x20, 2, 1), (0x24, 1, flags)])
def epochAt (st : EState) (applied poisoned : Nat) : Epoch := ⟨0, 0, 0, st, applied, 0, poisoned, key 1, 0⟩
def closingState (c : Cmd) (e : Epoch) (others : List Cmd) : State := { holding (begun c :: others) with epoch := e }
/-- A SNAP that has captured the epoch, and its read of PARAMS under way. -/
def snapHolds (s : State) : State :=
  { s with cmds := s.cmds ++ [asked 1 (begun (cmd 7 (desc 0x28)))], mreqs := [⟨0, 0, false, false, 0x2000, 4, [], .cmdRead (key 7) 7 0⟩] }

theorem witness_CommitFlipsTheEpoch :
    (∀ step < 3, Ready (holding [closing 0x23 step 1]) (key 1) (closing 0x23 step 1) ∧ epochOpen (holding [closing 0x23 step 1]) = true ∧
      dOp (closing 0x23 step 1).desc = 0x23 ∧ dStep (closing 0x23 step 1).desc = step ∧ nextStep (holding [closing 0x23 step 1]) = 1) ∧
    (∀ e ∈ [epochAt .committing 0 0, epochAt .committing 1 1, epochAt .committing 1 0], let s := closingState (closing 0x23 1 1) e []
      Begun s (key 1) (begun (closing 0x23 1 1)) ∧ s.epoch.state = .committing ∧ s.epoch.waiting = key 1 ∧ stagingRuns s 1 = false ∧
        evalOutstanding s = false ∧ epochHeld s = false ∧ s.epoch.parity ≤ 1) ∧
    (dNum (closing 0x23 1 1).desc 0x20 2 = 1 ∧ dNum (closing 0x23 1 1).desc 0x22 2 = 0 ∧ bitOf (dNum (closing 0x23 1 1).desc 0x24 1) 0 = true) ∧
    (let s := closingState (closing 0x23 1 1) (epochAt .committing 1 0) [cmd 0 (desc 0x22 [(0xC, 4, 1)])]
     Begun s (key 1) (begun (closing 0x23 1 1)) ∧ stagingRuns s 1 = true) ∧
    (let s := snapHolds (closingState (closing 0x23 1 1) (epochAt .committing 1 0) [])
     Begun s (key 1) (begun (closing 0x23 1 1)) ∧ epochHeld s = true) := by
  unfold Ready Begun; refine ⟨?_, ?_, ?_, ?_, ?_⟩ <;> decide +kernel

theorem witness_AbandonEmptiesTheStep :
    (∀ step < 3, let s := setGroup (holding [closing 0x24 step 0]) 0 group22
      Ready s (key 1) (closing 0x24 step 0) ∧ (∀ e ∈ s.cmds, e.key = (closing 0x24 step 0).key → e = closing 0x24 step 0) ∧
        epochOpen s = true ∧ epochHeld s = false ∧ dOp (closing 0x24 step 0).desc = 0x24 ∧ dStep (closing 0x24 step 0).desc = step) ∧
    (let s := snapHolds (setGroup (holding [closing 0x24 1 0]) 0 group22)
     Ready s (key 1) (closing 0x24 1 0) ∧ epochOpen s = true ∧ epochHeld s = true) ∧
    (group22.state ≠ .free ∧ group22.step = dStep (closing 0x24 1 0).desc) ∧
    (∀ others ∈ [[], [begun (cmd 0 (desc 0x22 [(0xC, 4, 1)]))]], ∀ n < 2,
      let s := closingState (asked n (closing 0x24 1 0)) (epochAt .abandoning 0 0) others
      Begun s (key 1) (asked n (begun (closing 0x24 1 0))) ∧ s.epoch.state = .abandoning ∧ s.epoch.waiting = key 1 ∧ epochHeld s = false ∧
        s.ras.damage = [] ∧ s.ras.lost = [] ∧ stagingWorks s = !others.isEmpty) := by
  unfold Ready Begun; refine ⟨?_, ?_, ?_, ?_⟩ <;> decide +kernel

def snapCmd (limit : Nat) : Cmd := cmd 0 (desc 0x28 [(0x20, 8, 0x5000000000000), (0x28, 8, 1), (0x3A, 1, 9), (0x40, 8, limit)])
/-- A SNAP of group 0 that has made some of its captures, on an OPEN group. -/
def capturing (n window : Nat) : Cmd := { asked n (begun (snapCmd 0x1000000)) with window := window }
def captures (n window : Nat) : State := setGroup (holding [capturing n window]) 0 group22

theorem witness_SnapCapturesItsImage :
    (∀ limit ∈ [0, 0x1000000], let s := setGroup (holding [snapCmd limit]) 0 group22
      Ready s (key 0) (snapCmd limit) ∧ dOp (snapCmd limit).desc = 0x28 ∧ (snapCmd limit).asked = 0 ∧ snapBusy s (key 0) = false ∧
        snLimit (snapCmd limit).desc = limit ∧ 0 < imageBound (readView s (key 0) 7) (snapCmd limit) ∧
        imageBound (readView s (key 0) 7) (snapCmd limit) ≤ 0x1000000) ∧
    (let s := holding [snapCmd 0, begun (cmd 1 (desc 0x28))]
     Ready s (key 0) (snapCmd 0) ∧ snapBusy s (key 0) = true) ∧
    (∀ n ∈ [1, 2, 3, 4], Begun (captures n 0) (key 0) (capturing n 0) ∧ (capturing n 0).errs = [] ∧ readsWait (captures n 0) (key 0) = false) ∧
    (nextGroup (captures 3 0) (capturing 3 0) = some 0 ∧ groupBusy (captures 3 0) 0 = false ∧ nextGroup (captures 3 1) (capturing 3 1) = none) ∧
    (let s := { captures 3 0 with folds := [⟨0, false, key 9, 0, 0, 0, 5, 0⟩] }
     Begun s (key 0) (capturing 3 0) ∧ nextGroup s (capturing 3 0) = some 0 ∧ groupBusy s 0 = true) := by
  unfold Ready Begun; refine ⟨?_, ?_, ?_, ?_, ?_⟩ <;> decide +kernel

/-- A BIST of a KIND on core 0 (unit 24). -/
def bist (kind : Nat) : Cmd := cmd 0 (desc 0x38 [(0x20, 8, 0x3000), (0x28, 8, 2 ^ 24), (0x30, 1, kind)])
def testing (kind : Nat) : State := { holding [begun (bist kind)] with bist := { bistReset with key := some (key 0) } }
theorem witness_BistTestsAndReports :
    (∀ k ∈ [1, 2, 3], Ready (holding [bist k]) (key 0) (bist k) ∧ dOp (bist k).desc = 0x38 ∧ bistKind (bist k).desc = k) ∧
    (∀ k ∈ [1, 2, 3], Begun (testing k) (key 0) (begun (bist k)) ∧ (testing k).bist.key = some (key 0) ∧
      bistClocked (testing k) (bist k).desc = true) ∧
    (memoryFails (testing 2) (bist 2).desc ⟨[], []⟩ = [] ∧ logicFails (testing 2) (bist 2).desc ⟨[], []⟩ = []) ∧
    logicFails (testing 1) (bist 1).desc ⟨[(24#5, 0#64)], []⟩ ≠ [] := by
  unfold Ready Begun; decide +kernel

theorem witness_DoorbellAndSetptrMoveThePointers :
    Reaches idle 0x30 ∧
    (∀ tail ∈ [0, 2 ^ rd idle (queRingCtlSizeLog2 0)], serialLt tail (rd idle (queTailCount 0)) = false ∧
      serialLt ((rd idle (queRetiredCount 0) + 2 ^ rd idle (queRingCtlSizeLog2 0)) % 2 ^ 32) tail = false) ∧
    (serialLt ((rd idle (queRetiredCount 0) + 2 ^ rd idle (queRingCtlSizeLog2 0)) % 2 ^ 32) (2 ^ rd idle (queRingCtlSizeLog2 0) + 1) = true) ∧
    (queueIdle idle 0 = true) ∧ queueIdle (setQueue idle 0 ⟨.running, false, [], []⟩) 0 = false := by
  unfold Reaches; decide +kernel

/-- Queue 1 in a state, with a FENCE that waits. -/
def queued (st : QState) : State := setQueue (holding [fenceOpen]) 1 ⟨st, false, [], []⟩

theorem witness_QueuesEnableDisableResume :
    (∀ st ∈ [QState.disabled, .running, .halted, .draining], Reaches (queued st) 0x31 ∧ (queueOf (queued st) 1).state = st) ∧
    ((∀ e ∈ (queued .running).cmds, ∀ c ∈ (queued .running).cmds, e.key = c.key → e = c) ∧ fenceOpen ∈ (queued .running).cmds ∧ fenceOpen.q = 1 ∧
      dOp fenceOpen.desc = 0x30 ∧ fenceOpen.phase = .begun) := by
  unfold Reaches; decide +kernel

/-- Queue 0 RUNNING, with one command below TAIL. -/
def belled : State := setQueue (wr idle (queTailCount 0) 1) 0 ⟨.running, false, [(1, 0)], []⟩

theorem witness_DescriptorsAreFetched :
    (unitsRun belled = true ∧ wantsFetch belled 0 = true ∧ fetchTurn belled 0 = true ∧ belled.wbuf = [] ∧
      reservedFree belled (mportOf (rd belled (queRingBaseAddr 0))) (rd belled (queRingCtlClass 0) == 0) = true) ∧
    wantsFetch idle 0 = false := by
  decide +kernel

/-- A fetched descriptor with the sequence number 5, and queue 1 in a state with it, beside the started commands given. -/
def fetched5 (d : List Byte) : Fetched := ⟨5, some d, false, [], 0, []⟩
def fetchedOne (st : QState) (d : List Byte) (l : List Cmd) : State := setQueue (holding l) 1 ⟨st, false, [], [fetched5 d]⟩
/-- NOP; NOP behind WAIT; NOP with a reserved byte set; an unknown opcode; a FOLD of no rows. -/
def nopBytes : List Byte := desc 0 [(127, 1, 0)]
def nopWait : List Byte := desc 0 [(1, 1, 1), (127, 1, 0)]
def nopBad : List Byte := desc 0 [(0x20, 1, 1), (127, 1, 0)]
def unknown : List Byte := desc 0x3F [(127, 1, 0)]
def foldNone : List Byte := desc 6 [(8, 4, 1), (0x28, 8, 8), (127, 1, 0)]
def classed (d : List Byte) : State := wr (fetchedOne .running d []) (queRingCtlClass 1) 2

theorem witness_CommandsStartWhenNothingHolds :
    (∀ p ∈ [(fetchedOne .draining nopBytes [], nopBytes), (fetchedOne .running nopWait [cmd 0 (desc 0)], nopWait), (classed nopBytes, nopBytes),
        (classed nopBad, nopBad), (classed unknown, unknown), (classed foldNone, foldNone), (classed (product 2).desc, (product 2).desc)],
      unitsRun p.1 = true ∧ p.1.wbuf = [] ∧ p.1.rbuf = [] ∧ p.1.ras.damage = [] ∧ (queueOf p.1 1).fetched = [fetched5 p.2] ∧
        recordsWait p.1 1 5 = false ∧ findCmd p.1 (1 * 2 ^ 32 + 5) = none) ∧
    ((queueOf (fetchedOne .draining nopBytes []) 1).state = .draining) ∧
    ((queueOf (classed (product 2).desc) 1).state = .running ∧
      missingRecs (classed (product 2).desc) 2 (fetched5 (product 2).desc) ≠ []) ∧
    (let s := fetchedOne .running nopWait [cmd 0 (desc 0)]
     let v := recView s (fetched5 nopWait)
     (queueOf s 1).state = .running ∧ missingRecs s 0 (fetched5 nopWait) = [] ∧ waitCause v 1 (failsAlone v 1 [] nopWait) nopWait ≠ 0) ∧
    (∀ d ∈ [nopBytes, nopBad, unknown, foldNone], let v := recView (classed d) (fetched5 d)
      (queueOf (classed d) 1).state = .running ∧ missingRecs (classed d) 2 (fetched5 d) = [] ∧ waitCause v 1 (failsAlone v 1 [] d) d = 0 ∧
        packable d = false) ∧
    (opcodes.contains (dOp unknown) = false ∧ ∀ d ∈ [nopBytes, nopBad, foldNone], opcodes.contains (dOp d) = true) ∧
    (commandFail (recView (classed nopBad) (fetched5 nopBad)) 2 [] nopBad = some (stBadEncoding, 0xFFFF20)) ∧
    (∀ d ∈ [nopBytes, foldNone], commandFail (recView (classed d) (fetched5 d)) 2 [] d = none ∧ zeroRows d = (d == foldNone)) := by
  refine ⟨?_, ?_, ?_, ?_, ?_, ?_, ?_, ?_⟩ <;> decide +kernel

def ended1 : Cmd := endedCmd (cmd 0 (desc 0)) stOK 0 0

theorem witness_CompletionRecordsAreWritten :
    (findCmd (holding [ended1]) (key 0) = some ended1 ∧ unitsRun (holding [ended1]) = true ∧ ended1.phase = .ended ∧
      writesPending (holding [ended1]) ended1.key = false ∧ (holding [ended1]).handoffs = [] ∧ ended1.seq = rd (holding [ended1]) (queRetiredCount ended1.q) ∧
      reservedFree (holding [ended1]) (mportOf (rd (holding [ended1]) (queCplBaseAddr 1))) false = true ∧ dOp ended1.desc < 2 ^ 8) ∧
    (findCmd (holding [cmd 0 (desc 0)]) (key 0) = some (cmd 0 (desc 0)) ∧ (cmd 0 (desc 0)).phase ≠ .ended) := by
  decide +kernel

/-- A product of one row, `n` columns and `k` K with stationary elements of a format code, whose one tile works on array 0; its rows are screened. -/
def passing (op n k code : Nat) (kind : ItemKind) : Cmd :=
  { latched (cmd 0 (desc op [(8, 4, 5), (0x20, 8, 0x100), (0x28, 8, 0x200), (0x30, 8, 0x300), (0x50, 4, 1), (0x54, 3, n), (0x58, 3, k)])) with
    outRec := 0x300, items := [⟨kind, 0, 0, 0, 0, .active⟩], recs := [(0x200, fill 0 [(8, 1, code), (56, 8, 0)])], screened := 1 }

/-- The tile's rows in a plane, its pass with the stages given left to issue, and a row group of a stage with the patches that have done it. -/
def part : PlanePart := ⟨key 0, 0, 0, 1, 5, none, 0⟩
def pass (stages : List Stage) : Pass := ⟨key 0, 0, [part], stages, 0, 1⟩
def rowGroup (st : Stage) (done : List Nat) : RowGrp := ⟨key 0, 0, st, 0, false, false, false, done, []⟩
def busy (stages : List Stage) : ArraySt := { arrayReset with on := true, passes := [pass stages] }
def onArray (c : Cmd) (a : ArraySt) : State := setArray (working [c]) 0 a
/-- Blocks that core 0 holds for the command. -/
def holdingBlks (s : State) (l : List Blk) : State := { s with staged := l.map (fun b => ⟨key 0, 0, b.code, 0, []⟩) }

/-- Slots with the tiles of the first stage, and of both, of a product with two K-blocks. -/
def slotWith (kb : Nat) : WSlot := { wslotEmpty with full := true, key := key 0, kbs := [kb] }
def twoStages : List Stage := [(0, [0]), (0, [1])]
def weights : List Blk := [⟨7, 0, 0, 0⟩, ⟨7, 0, 1, 0⟩]

theorem witness_SlotsAreLoaded :
    (∀ x ∈ [busy twoStages, { busy twoStages with slot0 := slotWith 0 }, { busy twoStages with slot0 := slotWith 0, slot1 := slotWith 1 }],
      ∀ code < 2, ∀ blks ∈ [[], weights], let c := passing 2 1 257 code .stat
      let s := holdingBlks (onArray c x) blks
      (arrayOf s 0).passes = [pass twoStages] ∧ passCmd s (pass twoStages) = some (c, ⟨.stat, 0, 0, 0, 0, .active⟩) ∧ s.wbuf = [] ∧ s.rbuf = [] ∧
        arraysMay s c = true ∧ c.saved = false) ∧
    (let s := onArray (passing 2 1 257 1 .stat) { busy twoStages with slot0 := slotWith 0, slot1 := slotWith 1 }
     ∀ t ∈ nextTiles s (arrayOf s 0), (slotOfStage (arrayOf s 0) t.1 t.2.1 t.2.2).isSome = true) ∧
    (∀ n < 2, let s := onArray (passing 2 1 257 1 .stat) (if n = 0 then busy twoStages else { busy twoStages with slot0 := slotWith 0 })
     (nextTiles s (arrayOf s 0)).find? (fun t => (slotOfStage (arrayOf s 0) t.1 t.2.1 t.2.2).isNone) = some (key 0, 0, [n]) ∧
       tilesHeld s (passing 2 1 257 1 .stat) 0 0 [n] = false ∧ tilesHeld (holdingBlks s weights) (passing 2 1 257 1 .stat) 0 0 [n] = true ∧
       slotIdle s (arrayOf s 0) false = (n == 0) ∧ slotIdle s (arrayOf s 0) true = true ∧ (arrayOf s 0).groups = []) ∧
    (∀ code < 2, let c := passing 2 1 257 code .stat
     decide ((statFmt (coreView (holdingBlks (onArray c (busy twoStages)) weights) c 0) c).fmt = .fp32) = (code == 0)) := by
  refine ⟨?_, ?_, ?_, ?_⟩ <;> decide +kernel

/-- A PLAIN that has not begun, on an idle array; the same at work with its tile in the slot, or not. -/
def beginning : State := setArray (working [plainReady]) 0 { arrayReset with on := true }
def issuing (slot : WSlot) : State := onArray (passing 2 1 1 1 .stat) { busy [(0, [0])] with slot0 := slot }

theorem witness_RowGroupsAreIssued :
    (let s := beginning
     let i : Item := ⟨.stat, 0, 0, 0, 0, .todo⟩
     s.wbuf = [] ∧ s.rbuf = [] ∧ (arrayOf s 0).passes = [] ∧ nextItem s 0 = some (plainReady, 0, i) ∧ findCmd s plainReady.key = some plainReady ∧
       plainReady.pack = [] ∧ pSform plainReady.desc = false ∧ refoldItem s plainReady i = false ∧ jointOf s plainReady 0 i = none ∧
       failedArray s 0 = false ∧ hasPreload s (partsOf s plainReady 0) = false) ∧
    (∀ x ∈ [wslotEmpty, slotWith 0], let s := issuing x
     let c := passing 2 1 1 1 .stat
     s.wbuf = [] ∧ s.rbuf = [] ∧ s.ras.damage = [] ∧ s.ras.lost = [] ∧ issuePass (arrayOf s 0) = some (pass [(0, [0])]) ∧
       (arrayOf s 0).passes.find? (fun q => q.key == key 0 && q.item == 0) = some (pass [(0, [0])]) ∧
       passCmd s (pass [(0, [0])]) = some (c, ⟨.stat, 0, 0, 0, 0, .active⟩) ∧ c.saved = false ∧
       (∀ m ∈ mates s c, m.errs = [] ∧ m.trapRow = none) ∧ jointPasses s 0 (pass [(0, [0])]) = [(0, pass [(0, [0])])] ∧ failedArray s 0 = false ∧
       canIssue s 0 (pass [(0, [0])]) = x.full ∧ chainBroken c ⟨.stat, 0, 0, 0, 0, .active⟩ = false ∧
       (stagePlane (arrayOf s 0) c ⟨.stat, 0, 0, 0, 0, .active⟩ (pass [(0, [0])]) (0, [0])).isSome = true) := by
  refine ⟨?_, ?_⟩ <;> decide +kernel

/-- Row group 0 of a PLAIN or a DW in flight, with the operands' blocks held or not. -/
def flying (op n : Nat) (kind : ItemKind) (st : Stage) (blks : List Blk) : State :=
  holdingBlks (onArray (passing op n 1 1 kind) { busy [] with groups := [rowGroup st []] }) blks

theorem witness_PatchesWork :
    (∀ x ∈ [(2, 1, ItemKind.stat, (0, [0])), (4, 17, .dw, (0, []))],
     let s := flying x.1 x.2.1 x.2.2.1 x.2.2.2 [⟨1, 0, 0, 0⟩, ⟨3, 0, 0, 0⟩]
     let g := rowGroup x.2.2.2 []
     let i : Item := ⟨x.2.2.1, 0, 0, 0, 0, .active⟩
     let c := passing x.1 x.2.1 1 1 x.2.2.1
     s.wbuf = [] ∧ s.rbuf = [] ∧ unitsRun s = true ∧ nextRowGroup s (arrayOf s 0) 0 = some g ∧
       (arrayOf s 0).passes.find? (fun p => p.key == g.key && p.item == g.item) = some (pass []) ∧ grpCmd s g = some (c, i) ∧
       patchReady s 0 0 g (pass []) c i = true ∧ patchReady (flying x.1 x.2.1 x.2.2.1 x.2.2.2 []) 0 0 g (pass []) c i = false ∧
       16 ∈ usedPatches s c i ∧ 16 ∉ g.done ∧ nextRowGroup s (arrayOf s 0) 1 = none) := by
  decide +kernel

theorem witness_FillersAndStarvation :
    (let s := onArray (passing 2 1 1 1 .stat) (busy [(0, [0])])
     unitsRun s = true ∧ (arrayOf s 0).on = true ∧ (arrayOf s 0).filler = false) ∧ (arrayOf idle 0).on = false ∧
    (let s := wr (onArray (passing 2 1 1 1 .stat) (busy [(0, [0])])) (corWdogCtlLimitMs 0) 1
     rd s (corWdogCtlLimitMs 0) = 1 ∧ patchStalled s 0 0 = true ∧ (arrayOf s 0).starved = [] ∧ patchStalled s 0 1 = false) := by
  decide +kernel

/-- A PAIR whose unit 0 has done its window on array `a` of lane `l`, and unit 1 is dealt to lane `m`, array `b`. -/
def pair (l a m b : Nat) : Cmd :=
  { passing 5 1 257 1 .stat with items := [⟨.stat, 0, 0, l, a, .active⟩, ⟨.stat, 0, 1, m, b, .todo⟩] }
/-- The plane of unit 0's carries. -/
def carries : Plane := { planeFree with state := .active, loaded := true, key := key 0, parts := [part], count := 7 }
def relaying (a : Nat) (c : Cmd) (hod : List HodTile) : State :=
  { setArray (working [c]) a { arrayReset with on := true, planeA := carries } with hod := hod }
def hodTile : HodTile := ⟨key 0, 0, 0, 1, 7, 0, []⟩
/-- The lane of unit 1 works on it, with a pass at its first window, or not. -/
def nextLane (s : State) (b : Nat) (on : Bool) : State :=
  if on then setArray s b { arrayReset with on := true, passes := [{ pass [(0, [1])] with item := 1 }] } else s

theorem witness_CarriesAreRelayed :
    (∀ p ∈ [(11, 22, 0, 0, 0), (11, 22, 0, 0, 15), (11, 22, 0, 0, 16), (0, 0, 1, 2, 0)],
      let c := pair p.1 p.2.1 p.2.2.1 p.2.2.2.1
      let s := relaying p.2.1 c (List.replicate p.2.2.2.2 hodTile)
      unitsRun s = true ∧ (arrayOf s p.2.1).planeA = carries ∧ (arrayOf s p.2.1).planeB.state = .free ∧ findCmd s (key 0) = some c ∧
        nextUnit c ⟨.stat, 0, 0, p.1, p.2.1, .active⟩ = some (1, ⟨.stat, 0, 1, p.2.2.1, p.2.2.2.1, .todo⟩) ∧
        mustStop c ⟨.stat, 0, 1, p.2.2.1, p.2.2.2.1, .todo⟩ = false ∧ c.saved = false ∧ hodUsed s = p.2.2.2.2 ∧
        overSeam s c ⟨.stat, 0, 0, p.1, p.2.1, .active⟩ ⟨.stat, 0, 1, p.2.2.1, p.2.2.2.1, .todo⟩ = (p.1 == 11)) ∧
    (∀ on : Bool, (carryRoom (nextLane (relaying 0 (pair 0 0 1 2) []) 2 on) (pair 0 0 1 2) 1 0 ⟨.stat, 0, 1, 1, 2, .todo⟩).isSome = on) ∧
    (∀ on : Bool, let c := pair 11 22 0 0
     let s := nextLane (relaying 22 c [hodTile]) 0 on
     s.hod = [hodTile] ∧ findCmd s hodTile.key = some c ∧ c.saved = false ∧ hodTile.src = 0 ∧
       (c.items.mapIdx (fun k x => (k, x))).find? (fun x => x.2.kind == .stat && x.2.r == 0 && x.2.c == 1) = some (1, ⟨.stat, 0, 1, 0, 0, .todo⟩) ∧
       (carryRoom s c 1 0 ⟨.stat, 0, 1, 0, 0, .todo⟩).isSome = on) := by
  refine ⟨?_, ?_, ?_⟩ <;> decide +kernel

/-- Plane A of array 0 in a state, with the work of the command given and its record's address. -/
def withPlane (st : PlaneState) (c : Cmd) (src : Nat) : State :=
  onArray c { arrayReset with on := true, planeA := { planeFree with state := st, key := key 0, parts := [part], src := src } }
/-- The same with the record read back. -/
def readBack (s : State) : State := { s with staged := [⟨key 0, 7, savePart 0x80000, 0, []⟩] }

theorem witness_PlanesAreSavedAndLoaded :
    (∀ st ∈ [PlaneState.saving, .loading, .free], ∀ src ∈ [0, 0x80000], let c := passing 2 1 1 1 .stat
      let s := withPlane st c src
      unitsRun s = true ∧ findCmd s (key 0) = some c ∧ (arrayOf s 0).planeA.state = st ∧ (arrayOf s 0).planeA.key = key 0 ∧
        c.items[(arrayOf s 0).planeA.item]? = some ⟨.stat, 0, 0, 0, 0, .active⟩ ∧ mustStop c ⟨.stat, 0, 0, 0, 0, .active⟩ = false ∧
        s.ras.damage = [] ∧ s.ras.lost = [] ∧ (arrayOf s 0).planeA.loaded = false ∧ (arrayOf s 0).planeA.src = src ∧
        (arrayOf s 0).planeB.state = .free) ∧
    (let s := withPlane .loading (passing 2 1 1 1 .stat) 0x80000
     recordBack s (key 0) 0x80000 = none ∧ (recordBack (readBack s) (key 0) 0x80000).isSome = true) := by
  refine ⟨?_, ?_⟩ <;> decide +kernel

/-- A class-3 product of queue 2 that works on array 0, and a product of queue 1 dealt to it. -/
def low : Cmd := newCmd idle (2 * 2 ^ 32) (product 2).desc 0
def contested (base : Nat) : State :=
  setArray (wr (wr (wr (working [plain1, low]) (queRingCtlClass 1) 1) (queRingCtlClass 2) 3) cmdSaveBaseAddr base) 0
    { arrayReset with on := true, passes := [{ pass [(0, [0])] with key := low.key, parts := [{ part with key := low.key }] }] }

theorem witness_PreemptSavesCommands :
    (findCmd (contested 0x80000) (key 0) = some plain1 ∧ arraysMay (contested 0x80000) plain1 = true ∧ plain1.saved = false ∧
      rd (contested 0x80000) cmdSaveBaseAddr ≠ 0 ∧ (contested 0x80000).cmds.find? (preempts (contested 0x80000) plain1) = some low ∧
      (contested 0x80000).wbuf = [] ∧ (contested 0x80000).rbuf = []) ∧
    rd (contested 0) cmdSaveBaseAddr = 0 ∧ ∀ v ∈ (working [plain1]).cmds, preempts (working [plain1]) plain1 v = false := by
  decide +kernel

def savedCmd : Cmd := { plain1 with saved := true }
def savedState : State := { working [savedCmd] with images := [⟨key 0, 0, some (pass [(0, [0])]), none⟩] }

theorem witness_ResumeTakesImagesBack :
    (findCmd savedState (key 0) = some savedCmd ∧ savedState.wbuf = [] ∧ savedState.rbuf = [] ∧ savedCmd.pack = [] ∧
      (∀ m ∈ mates savedState savedCmd, resumeReady savedState m = true) ∧
      (bringAll savedState (savedState.images.filter (fun x => (mates savedState savedCmd).any (fun m => m.key == x.key)))).isSome = true) ∧
    (let s := { savedState with power := { active.power with state := .drain } }
     findCmd s (key 0) = some savedCmd ∧ s.power.state = .drain ∧ resumeReady s savedCmd = false) ∧
    (findCmd (working [plain1]) (key 0) = some plain1 ∧ plain1.saved = false ∧ plain1.pack = []) := by
  refine ⟨?_, ?_, ?_⟩ <;> decide +kernel

/-- A PLAIN with an output that has left the edge, and its array's layout record. -/
def edged : Cmd := { finished 2 [(auxKey 0 0, 0x3F8000000000)] with items := [⟨.stat, 0, 0, 0, 0, .active⟩] }

theorem witness_TrowelsFetchAndStore :
    (∀ c ∈ [plain1, { tagged 0 with items := plain1.items }, { plain1 with items := [] }], let s := working [c]
     findCmd s (key 0) = some c ∧ s.wbuf = [] ∧ s.rbuf = [] ∧ unitsRun s = true ∧ isProduct c.desc = true ∧ c.phase = .started ∧ heldBack s c = false ∧
       c.errs = [] ∧ c.trapRow = none) ∧
    (takesView (tagged 0).desc = true ∧ (tagged 0).view = none ∧ viewReady (working [tagged 0]) (tagged 0) = true) ∧
    (viewReady (working [husking 0, tagged 1]) (tagged 1) = false ∧ unitsRun (working [husking 0, tagged 1]) = true ∧
      heldBack (working [husking 0, tagged 1]) (tagged 1) = false) ∧
    (takesView plain1.desc = false ∧ (∃ x ∈ plain1.items, (fetchCore (working [plain1]) plain1 (x.array / 4)).isSome = true)) ∧
    (let s := finishing edged
     findCmd s (key 0) = some edged ∧ unitsRun s = true ∧ isProduct edged.desc = true ∧ pStores edged.desc = true ∧ edged.phase = .started ∧
       heldBack s edged = false ∧ storeRun s edged = [(0, 0)] ∧ pM edged.desc = 1 ∧ pNExt edged.desc = 1 ∧ (∀ x ∈ edged.items, x.array < 24) ∧
       (layoutAt s edged.outRec).mx = false) ∧
    storeRun (working [plain1]) plain1 = [] ∧ Reaches idle 0x08 := by
  unfold Reaches; refine ⟨?_, ?_, ?_, ?_, ?_, ?_, ?_⟩ <;> decide +kernel

/-- A DW tile whose plane waits to fold into tile 0 of group 0, whose stamp is given; and the same fold begun, with the group's GEN given. -/
def foldWaits (stamp : Nat) : State :=
  { setGroup (withPlane .folding (passing 4 1 1 1 .dw) 0) 0 group22 with tiles := [(0, ⟨.resident, 0, true, stamp, false, 0⟩)] }
def foldRuns (gen : Nat) : State :=
  { setGroup (foldWaits 4) 0 { group22 with gen := gen } with folds := [⟨0, false, key 0, 0, 0, 0, 5, 0⟩] }

theorem witness_PlanesFold :
    (∀ stamp ∈ [4, 5], let s := foldWaits stamp
     let c := passing 4 1 1 1 .dw
     s.wbuf = [] ∧ s.rbuf = [] ∧ s.ras.damage = [] ∧ waitingFolds s 0 = [(false, part)] ∧ (planeAt (arrayOf s 0) false).parts = [part] ∧
       findCmd s part.key = some c ∧ c.items[part.item]? = some ⟨.dw, 0, 0, 0, 0, .active⟩ ∧ unitsRun s = true ∧
       itemFold s c.desc ⟨.dw, 0, 0, 0, 0, .active⟩ = (0, 0, 1, 1) ∧ foldTurn s c 0 = true ∧ tileHeld s (tileKey 0 0) = false ∧
       c.trapRow = none ∧ divertFor s c 0 0 = none ∧ (tileOf s 0 0).state = .resident ∧
       foldCheck s 0 0 (genOf c 0) (dStamp c.desc) = (if stamp = 5 then .refold else .go)) ∧
    (∀ gen ∈ [0, 1], let s := foldRuns gen
     s.folds.find? (fun f => f.array == 0) = some ⟨0, false, key 0, 0, 0, 0, 5, 0⟩ ∧ findCmd s (key 0) = some (passing 4 1 1 1 .dw) ∧
       (planeAt (arrayOf s 0) false).parts = [part] ∧ part.key = key 0 ∧ part.item = 0 ∧ unitsRun s = true ∧ (groupOf s 0).gen = gen ∧
       (tileOf s 0 0).state = .resident) := by
  refine ⟨?_, ?_⟩ <;> decide +kernel

/-- 480 frames pinned by group 0, and 32 resident tiles of group 1. -/
def full : State :=
  { setGroup (setGroup idle 0 { group22 with rows := 480 * 256, homeFmt := 0 }) 1 { group22 with rows := 64 * 256 } with
    tiles := (List.range 32).map (fun k => (tileKey 1 k, ⟨.resident, k, k == 0, 5, false, 0⟩)) }

/-- A SCATTER ACCUM into group 1 that has begun to work, which needs its tiles. -/
def scattering : Cmd := { sca 0x19 3 1 0 with desc := desc 0x19 [(0x40, 4, 1), (0x48, 2, 1), (0x4B, 1, 1), (0x4C, 1, 3)] }

theorem witness_TilesMoveBetweenFramesAndHomes :
    (let s := setGroup (holding [sca 0x19 3 1 0]) 0 group22
     unitsRun s = true ∧ 0 < groupTiles (groupOf s 0) ∧ (tileOf s 0 0).state = .untouched ∧ (groupOf s 0).init = false ∧ 0 < freeFrames s ∧
       tileWanted s (gGroup (sca 0x19 3 1 0).desc) 0 = true ∧ ¬ 1 < groupTiles (groupOf s 0)) ∧
    (let s := { full with cmds := [scattering] }
     unitsRun s = true ∧ freeFrames s = 0 ∧ frameWanted s = true ∧ victim s = some (tileKey 1 0) ∧ s.ras.damage = [] ∧ s.wbuf = [] ∧ s.rbuf = []) ∧
    frameWanted full = false ∧ freeFrames idle ≠ 0 := by
  decide +kernel

def handing (head : Nat) : State := wr { idle with handoffs := [⟨key 0, zeros 48⟩] } sivHringHeadIndex head

theorem witness_RecordsAndMessagesLeaveInOrder_waits : handoffWaits { handing 0 with mreqs := [⟨0, 0, false, true, 0x2000, 64, [], .handoff (key 0)⟩] } = true := by
  decide +kernel

theorem witness_RecordsAndMessagesLeaveInOrder : ∀ head ∈ [2 ^ rd idle sivHringCtlSizeLog2 - 1, 2 ^ rd idle sivHringCtlSizeLog2],
    unitsRun (handing head) = true ∧ handoffWaits (handing head) = false ∧ (handing head).handoffs = [⟨key 0, zeros 48⟩] ∧ rd (handing head) sivHringHeadIndex = head ∧
      rd (handing head) sivHringTailIndex = 0 := by
  decide +kernel

def keep : State := { State.reset with power := powerReset }
def off : State := { State.reset with power := { powerReset with state := .off } }

theorem witness_RegisterPortAnswers :
    awake off = false ∧ (awake keep = true ∧ pageExists 0x0E = false ∧ (∃ (a : BitVec 17) (v : Word), 0x0E = a.toNat * 8 / 4096 ∧ v = 0)) ∧
    (∀ p ∈ [0x01, 0x04, 0x07, 0x08, 0x0D, 0x30], awake keep = true ∧ pageExists p = true ∧ keep.power.state = .keep) := by
  refine ⟨by decide, ⟨by decide, by decide, 0x1C00#17, 0, by decide, rfl⟩, by decide⟩

theorem witness_CountersAndEventsAreCleared : ∀ page ∈ [0x00, 0x03, 0x3F], Reaches idle page := by unfold Reaches; decide

theorem witness_GlbWritesAct :
    Reaches idle 0x00 ∧ rd idle glbArrayLiveLocked ≠ 1 ∧ rd active glbArrayLiveLocked = 1 ∧ Reaches active 0x00 ∧
    (rd idle glbRiskLevel < rd idle glbSnapArmThreshold ∧ rd idle glbSnapArmThreshold ≤ 8 ∧ ¬ rd idle glbSnapArmThreshold ≤ 7) ∧
    (∀ st ∈ [ArmState.idle, .arming, .armed, .running], Reaches { idle with snap := ⟨st, desc 0x28, [], false⟩ } 0x00) := by
  unfold Reaches; decide +kernel

/-- Trace sources on, with a ring of 256 records, and `n` records waiting. -/
def tracing (n : Nat) : State :=
  { wr (wr idle trcSrcEnSources 0x1FF) trcRingCtlSizeLog2 8 with trace := List.replicate n (zeros 32), cport := [⟨0, 0x4000, 5⟩] }

theorem witness_TraceRingTakesWritesAndMarks :
    (∀ n ∈ [0, 1, 63, 64], Reaches (tracing n) 0x04 ∧ traceOn (tracing n) 8 = true ∧ traceDrop (tracing n) = (if n = 64 then some trcDroppedBacklog else none) ∧
      portClock (tracing n) = true ∧ (tracing n).cport = [⟨0, 0x4000, 5⟩]) ∧
    (Reaches idle 0x04 ∧ rd idle trcSrcEnSources = 0 ∧ idle.trace = [] ∧ traceOn idle 8 = false ∧ rd (tracing 0) trcSrcEnSources ≠ 0) ∧
    (∀ x ∈ [0, 7, 8, 24, 25], ∃ v : Word, bitsOf v.toNat trcRingCtlSizeLog2.lo trcRingCtlSizeLog2.width = x) ∧
    (serialLt (rd idle trcHeadCount) 0 = false ∧ serialLt (rd idle trcHeadCount) 1 = true) ∧
    ((zeros 32).length = 32) := by
  unfold Reaches; refine ⟨by decide, by decide, fun x h => ⟨x, by revert x; decide⟩, by decide, by decide⟩

theorem witness_AddressedWordsAdvance :
    (∀ p ∈ [0x03, 0x07, 0x0D], Reaches idle p) ∧ (rd idle fmtAdvAddrSet = 0 ∧ rd idle fmtAdvAddrWord = 0 ∧ rd (wr idle fmtAdvAddrWord 63) fmtAdvAddrWord ≠ 0) ∧
    (unitsRun { idle with advisor := [(5, { advLayerReset with stale := true })] } = true ∧
      (layerOf { idle with advisor := [(5, { advLayerReset with stale := true })] } 5).stale = true ∧ (layerOf idle 5).stale = false) := by
  unfold Reaches; decide +kernel

/-- A stage of the clock sequences with the handshake's levels and TARGET. -/
def stage (st : PState) (clk : ClkStage) (req ack : Bool) (tgt : Nat) : State :=
  { wr State.reset pwrStateCtlTarget tgt with power := ⟨st, clk, req, ack, false, false, false, false, 0, 0⟩ }

theorem witness_ClocksFollowTheHandshake :
    awake off = false ∧
    (∀ x ∈ [stage .keep .leavingRetention false false 1, stage .keep .requesting true false 1, stage .keep .starting true true 1,
        stage .idle .quiescing true true 0, stage .idle .quiescing true true 1, stage .idle .releasing false true 0, stage .idle .running true true 1,
        stage .idle .enteringRetention false false 0], awake x = true ∧ x.wbuf = [] ∧ workReady x = false ∧ x.snap.state ≠ .arming ∧ keepOk x = true ∧
        firedWaits x = false ∧ x.power.slow = false) ∧
    (target (stage .keep .starting true true 1) ≠ 0 ∧ target (stage .idle .quiescing true true 0) = 0 ∧ target (stage .idle .quiescing true true 1) ≠ 0 ∧
      target (stage .idle .enteringRetention false false 0) = 0) := by
  decide +kernel

theorem witness_TargetsMoveTheEngine :
    Reaches keep 0x02 ∧ Reaches active 0x02 ∧ (∃ v : Word, bitsOf v.toNat pwrStateCtlTarget.lo pwrStateCtlTarget.width = 3) ∧
    (keep.power.clk = .stopped ∧ keep.power.ack = false) ∧ (workRemains (working [plain1]) = true ∧ (working [plain1]).power.state = .active ∧
      rd (working [plain1]) pwrStateCtlDrainMode = 0) ∧
    (workReady { working [plain1] with power := { active.power with state := .drain } } = true) ∧
    (Reaches (stage .idle .quiescing true true 0) 0x02 ∧ target (stage .idle .quiescing true true 0) = 0) := by
  unfold Reaches; refine ⟨by decide, by decide, ⟨3, by decide⟩, by decide, by decide, by decide, by decide⟩

theorem witness_TheGovernorPacesSteps :
    awake off = false ∧ awake idle = true ∧ idle.tb.valid = false ∧ ({ idle with tb := ⟨0, true, 0⟩ }).tb.valid = true ∧ portClock keep = false ∧
    portClock idle = true ∧ govPending idle = false ∧ ∀ a < 24, failedArray idle a = false := by
  decide +kernel

/-- The scrubber at its last place but one before a pass ends, with the damage given. -/
def scrubbing (p : Nat) (l : List Damage) : State := { wr idle rasScrubCtlEnable 1 with ras := { rasReset with scrub := p, damage := l } }
def single (back : Bool) : Damage := ⟨1, 0, 4, false, back⟩

theorem witness_ErrorsAreMetAndMended :
    (portClock keep = false) ∧ (rd (wr idle rasScrubCtlEnable 0) rasScrubCtlEnable ≠ 1) ∧
    (∀ p ∈ [0, 4095], portClock (scrubbing p []) = true ∧ rd (scrubbing p []) rasScrubCtlEnable = 1 ∧ (scrubbing p []).ras.damage = []) ∧
    (portClock (scrubbing 1 [single false]) = true ∧ scrubChecks (scrubbing 1 [single false]) (single false) = true ∧
      scrubPlace (single false) % scrubSpan 1 = 1 % scrubSpan 1) ∧
    ((scrubbing 1 [single true]).ras.damage.find? (·.back) = some (single true) ∧ idle.ras.damage.find? (·.back) = none) ∧
    (off.power.state = .off ∧ idle.power.state ≠ .off ∧ idle.ras.keepBad = [] ∧ { rasReset with keepBad := [(0, 0)] }.keepBad = (0, 0) :: [] ∧
      unwritten idle ⟨7#4, 0#8, 0#32⟩ = true ∧ unwritten idle ⟨0#4, 0#8, 0#32⟩ = false) := by
  decide +kernel

/-- A request for 16 bytes at 0x1000 with tag 3, and a state that awaits its response. -/
def request (w : MPurpose) (write : Bool) : MReq := ⟨0, 3, false, write, 0x1000, 16, [(0x1000, 16)], w⟩
def asking (w : MPurpose) (write : Bool) (c : Cmd) : State := setQueue { holding [c] with mreqs := [request w write] } 1 ⟨.running, false, [], []⟩
def awaited (w : MPurpose) (write : Bool) (c : Cmd) : Option MReq :=
  (asking w write c).mreqs.find? (fun r => r.port == 0 && r.tag == 3)

theorem witness_ResponsesEndRequests :
    (awake off = false) ∧ (awake idle = true ∧ portClock idle = true ∧ idle.mreqs.find? (fun r => r.port == 0 && r.tag == 3) = none) ∧
    (let s := asking (.cmdRead (key 0) 7 0) false (cmd 0 (desc 6))
     awake s = true ∧ portClock s = true ∧ awaited (.cmdRead (key 0) 7 0) false (cmd 0 (desc 6)) = some (request (.cmdRead (key 0) 7 0) false) ∧
       s.mwait = [] ∧ findCmd s (key 0) = some (cmd 0 (desc 6)) ∧ isProduct (cmd 0 (desc 6)).desc = false ∧ (cmd 0 (desc 6)).phase = .started ∧
       (cmd 0 (desc 6)).pack = [] ∧ rd s trwMportErrCount = 0 ∧ s.staged = []) ∧
    (awaited (.completion (key 0)) true ended1 = some (request (.completion (key 0)) true) ∧ key 0 < firedKey ∧
      findCmd (asking (.completion (key 0)) true ended1) (key 0) = some ended1 ∧ ended1.status = stOK ∧
      (queueOf (asking (.completion (key 0)) true ended1) ended1.q).state = .running) ∧
    (awaited (.handoff (key 0)) true ended1 = some (request (.handoff (key 0)) true)) ∧
    (awaited (.cmdRead (key 1) 0 0) false ended1 = some (request (.cmdRead (key 1) 0 0) false) ∧
      findCmd (asking (.cmdRead (key 1) 0 0) false ended1) (key 1) = none) := by
  refine ⟨?_, ?_, ?_, ?_, ?_, ?_⟩ <;> decide +kernel

theorem witness_InputsAndResetsAct :
    (({ idle with tb := ⟨5, true, 0⟩ }).tb.valid = true ∧ (4 : Nat) < ({ idle with tb := ⟨5, true, 0⟩ }).tb.time) ∧ idle.tb.valid = false ∧
    (∀ r w : Bool, ({ idle with rstLow := r, wrstLow := w }).rstLow = r ∧ ({ idle with rstLow := r, wrstLow := w }).wrstLow = w ∧
      ({ idle with rstLow := r, wrstLow := w }).test.disturbed = false ∧ ({ idle with rstLow := r, wrstLow := w }).power.state ≠ .off ∧
      ({ idle with rstLow := r, wrstLow := w }).wbuf = []) ∧ off.power.state = .off := by
  decide +kernel

theorem witness_TestPortActsOnTheWrapper :
    (off.power.state = .off ∧ off.wbuf = []) ∧ idle.power.state ≠ .off ∧
    (∀ m ∈ [1, 2, 3], let s := { idle with rstLow := true, test := { testReset with wir := .ijtag, ctls := [(23, { ctl1687Zero with run := true, kind := m })] } }
      s.rstLow = true ∧ s.test.wir = .ijtag ∧ (ctlOf s 23).run = true ∧ (ctlOf s 23).kind = m ∧ unitTests 23 m ≠ 0) := by
  decide +kernel

theorem witness_UpdatesOfOneEntry : (f32Val (⟨0, 0, 0, 0, 0, 0, 0, 0, 0, 0, 0⟩ : Hyper).wd).isZero = true := by decide

theorem witness_RegWriteSetsItsFields : Reaches idle 0x0B ∧ (0x1620#17).toNat * 8 = 0x0B * 4096 + 0x100 ∧
    (∃ f ∈ regFields 0x0B 0x100, f.acc = .rw ∧ fieldLegal f (bitsOf 2 f.lo f.width) = true ∧ fieldLegal f (bitsOf 3 f.lo f.width) = false) := by
  unfold Reaches; decide +kernel

/-! ### Single operations and commands with the results the manual gives -/

/-- A fact about the state a command leads to. -/
def after (i : Instr) (s : State) (p : State → Bool) : Bool := match exec i s with
  | .next t => p t
  | _ => false

/-- The status, flags and RESULT a command has ended with. -/
def cmdAfter (i : Instr) (s : State) (k : Nat) : Option (Nat × Nat × Nat) := match exec i s with
  | .next t => (findCmd t k).bind (fun c => if c.phase == .ended then some (c.status, c.flags, c.result) else none)
  | _ => none

/-- R11: the digest of the nine characters 123456789. -/
theorem test_digest : crc64 [0x31, 0x32, 0x33, 0x34, 0x35, 0x36, 0x37, 0x38, 0x39] = 0x6C40DF5F0B497347 := by decide +kernel

/-- 02, AF48: the encoding of 1.0, and the binary64 of 1 + 2^-39. -/
theorem test_af48 : fp32ToAF48 0x3F800000 = 0x3F8000000000 ∧ af48ToB64 0x3F8000000001 = 0x3FF0000000002000 := by decide +kernel

/-- 02, the MX example: a block with 0.3, -0.001 and 0 stored as E4M3. -/
theorem test_mx_block : mxBlock ⟨.e4m3, true, .rne, false, ⟨0, 0, 0, 0⟩⟩ [(0, .fin false 5033165 (-24)), (1, .fin true 16777 (-24)), (2, .fin false 0 0)] =
    (0x75, [0x7A, 0xB8, 0x00], 0) := by decide +kernel

/-- 03, the cell step: 1 + 2^-40 + 2^-42 rounds once, up. -/
theorem test_cell_step : cellStep 0x3F8000000000 [.fin false 1 (-40), .fin false 1 (-42)] = 0x3F8000000001 := by decide +kernel

/-- 05, tanh from y = 0.8046875 with dY = 0.5: dY' is 0x3E34 in BF16. -/
theorem test_tanh : encodeRNE ffBF16 (mulVal (derivElem 2 1 valZero (decodeFloat ffBF16 0x3F4E)) (decodeFloat ffBF16 0x3F00)) = 0x3E34 := by
  decide +kernel

/-- 11, the first AdamW step of one entry. -/
def adam : Hyper :=
  { lr := 0x3A800000, mu := 0, b1 := 0x3F666666, ob1 := 0x3DCCCCCD, b2 := 0x3F7FBE77, ob2 := 0x3A83126F, eps := 0x322BCC77, wd := 0x3C23D70A
    gscale := 0x3E000000, bc1 := 0x41200000, bc2 := 0x447A0000 }

theorem test_adamw : let u := updateEntry 3 adam (.fin false 1 (-1)) 0x3F800000 0 0
    u.w = 0x3F7FBF5C ∧ u.m = 0x3BCCCCCD ∧ u.v = 0x3683126F := by decide +kernel

/-- 17: the live map of a GPE-22 is taken as it is written. -/
theorem test_array_live : after (.arrayLiveWrite 0x02EBFFFF) idle (fun t => rd t glbArrayLiveLive == 0xEBFFFF && rd t glbArrayLiveGrade == 2 &&
    rd t glbArrayLiveLocked == 1 && rd t glbArrayLiveMapBad == 0) = true := by decide +kernel

/-- 12: the COMMIT of step 1,207 of an even parity ends with PARITY set and RESULT 1,207. -/
def commit1207 : Cmd := begun (cmd 41 (desc 0x23 [(1, 1, 2), (4, 4, 1), (0xC, 4, 0x4B7), (0x20, 2, 1), (0x22, 2, 1), (0x24, 1, 1)]))
theorem test_commit : cmdAfter (.epochFlip (ref 41)) { holding [commit1207] with epoch := ⟨0, 1206, 0, .committing, 1, 1, 0, key 41, 0⟩ } (key 41) =
    some (stOK, flParity, 1207) := by decide +kernel

/-- A PLAIN of 2.0 by 3.0 in FP32 stores 6.0: one row, one column, one K. -/
theorem test_plain : after (.plain (ref 0)) six (fun t => t.num 0x1000 4 == 0x40C00000) = true := by decide +kernel

theorem test_nop : cmdAfter (.nop (ref 0)) (holding [cmd 0 (desc 0)]) (key 0) = some (stOK, 0, 0) := by decide +kernel

/-- R306: VALUE to ADDR in little-endian order. -/
theorem test_stamp : after (.stampWrite (ref 1)) (holding [stampLate]) (fun t => t.mem == [(0x1000, 0xCD#8), (0x1001, 0xAB#8)]) = true := by decide +kernel

/-- R155: a fold above the tile's stamp adds 1.0 to the entry 0.0; at its stamp the record carries REFOLD. -/
def one : State := withMem (folding fold1 group22 4) 0x30000 (natLE 0x3FF0000000000000 8)
theorem test_fold : after (.fold (ref 0)) one (fun t => readEntry t 0 0 0 == 0x3FF0000000000000 && (tileOf t 0 0).stamp == 5) = true := by decide +kernel
theorem test_refold : cmdAfter (.fold (ref 0)) (folding fold1 group22 5) (key 0) = some (stOK, flRefold, 0) := by decide +kernel

/-- R230: BUMP moves a slot's generation on, with 0xFFF skipped; CANCEL sets its state. -/
theorem test_bump : after (.bump (ref 0)) (holding [ledgerCmd 0 5 1]) (fun t => (slotOf t 5).gen == 1 && (slotOf t 6).gen == 0) = true := by decide +kernel
theorem test_cancel_anonymous : cmdAfter (.cancel (ref 0)) (holding [ledgerCmd 1 0xFFE 2]) (key 0) = some (stOK, 0, 1) := by decide +kernel

/-- R234, R235: under FAULT an index outside the table refuses the SCATTER, with its row in RESULT. -/
theorem test_idx_fault : cmdAfter (.scatterStore (ref 0)) (indexed (asked 1 (sca 0x19 0 1 2)) 2) (key 0) = some (stIdxFault, 0, 0) := by decide +kernel

/-- R295: the doorbell takes a TAIL up to the ring's size past RETIRED. -/
theorem test_doorbell : after (.doorbell 0 1) idle (fun t => rd t (queTailCount 0) == 1) = true ∧
    after (.doorbell 0 0xFFFFFFFF) idle (fun t => rd t (queTailCount 0) == 0 && rd t cmdBadDoorbellCount == 1) = true := by decide +kernel

/-- R317, R319: the completion record's entry and its phase bit. -/
theorem test_completion : after (.completionRecord (.queued (ref 0))) (holding [ended1]) (fun t => t.num 0x0E 1 == 0x81) = true := by decide +kernel

/-- R346, R349: TARGET raised in KEEP starts the wake, and CLOCK_REQUEST raises PCLK_REQ. -/
theorem test_wake : after (.powerTarget 1) keep (fun t => t.power.clk == .leavingRetention && t.power.req == false) = true ∧
    after .clockRequest (stage .keep .leavingRetention false false 1) (fun t => t.power.req) = true := by decide +kernel

/-- R398: the message of vector 3 at time 0x1_0000_0002 of chip 0. -/
theorem test_message : (irqMessage { wr (wr idle glbIrqCtlMode 8) (glbMsiAddrAddr 3) 0x4000 with tb := ⟨0x100000002, true, 0⟩ } 3).cport.map (·.word) = [0x200000003] := by decide +kernel

/-- R393: a packet that is too short is answered with REJECT. -/
theorem test_reject : after (.fportReceive 2 7 []) idle (fun t => tfind t.frs 2 == some (7, frsReject)) = true := by decide +kernel

/-- R15, R379: RST_N empties the engine and leaves it in KEEP, and its end samples the straps. -/
theorem test_reset : State.reset.power.state = .keep ∧ after (.rstN true ⟨0x0123, 0xF⟩) active (fun t => t.power.state == .keep && t.cmds.isEmpty) = true ∧
    after (.rstN false ⟨0x0123, 0xF⟩) { State.reset with rstLow := true } (fun t => rd t glbStrapsChipNum == 0x0123) = true := by decide +kernel


end Sys2Proof.Tests
end

section
/-! SUPPORT. The rules that the statements about registers, events, stores and requests share: one for each operation. -/

namespace Sys2Proof.Machine

/-! ### Bits and little-endian numbers -/

theorem bitOf_eq_testBit (n i : Nat) : bitOf n i = n.testBit i := by
  apply Bool.eq_iff_iff.mpr
  rw [bitOf, bitsOf, Nat.testBit_eq_decide_div_mod_eq, Nat.shiftRight_eq_div_pow, Nat.pow_one, beq_iff_eq, decide_eq_true_iff]

theorem bitsOf_lt (n lo w : Nat) : bitsOf n lo w < 2 ^ w := Nat.mod_lt _ (Nat.two_pow_pos w)

/-- A bit below the width is kept when a number is cut to the width. -/
theorem bitOf_mod_two_pow {w i : Nat} (n : Nat) (h : i < w) : bitOf (n % 2 ^ w) i = bitOf n i := by
  simp [bitOf_eq_testBit, Nat.testBit_mod_two_pow, h]

theorem satAdd_lt (w a b : Nat) : satAdd w a b < 2 ^ w := by
  have := Nat.two_pow_pos w
  unfold satAdd; omega

/-- Adding the weight of a clear bit sets it. -/
theorem bitOf_add_two_pow_self {n b : Nat} (h : bitOf n b = false) : bitOf (n + 2 ^ b) b = true := by
  rw [bitOf_eq_testBit] at *
  rw [Nat.add_comm, Nat.testBit_two_pow_add_eq, h]; rfl

/-- Adding the weight of a clear bit leaves the other bits. -/
theorem bitOf_add_two_pow_ne {n b i : Nat} (h : bitOf n b = false) (hi : i ≠ b) : bitOf (n + 2 ^ b) i = bitOf n i := by
  rw [bitOf_eq_testBit] at *
  rw [bitOf_eq_testBit]
  rcases Nat.lt_or_gt_of_ne hi with lt | gt
  · rw [Nat.add_comm, Nat.testBit_two_pow_add_gt lt]
  · obtain ⟨k, rfl⟩ : ∃ k, i = b + 1 + k := ⟨i - (b + 1), by omega⟩
    have hdiv : (n + 2 ^ b) / 2 ^ (b + 1) = n / 2 ^ (b + 1) := by
      rw [Nat.testBit_eq_decide_div_mod_eq, decide_eq_false_iff_not] at h
      rw [Nat.pow_succ, ← Nat.div_div_eq_div_mul, ← Nat.div_div_eq_div_mul, Nat.add_div_right _ (Nat.two_pow_pos b)]
      omega
    rw [Nat.add_comm (b + 1) k, ← Nat.testBit_div_two_pow, hdiv, Nat.testBit_div_two_pow]

/-- The number of the bytes of a number is the number, cut to their width (R16). -/
theorem leNat_natLE (n k : Nat) : leNat (natLE n k) = n % 2 ^ (8 * k) := by
  induction k generalizing n with
  | zero => simp [natLE, leNat, Nat.mod_one]
  | succ k ih =>
    rw [natLE, leNat, ih, BitVec.toNat_ofNat, Nat.mul_succ, Nat.add_comm (8 * k), Nat.pow_add, Nat.mod_mul]

/-! ### Which fields a state keeps -/

theorem FieldsKept.refl (s : State) (l : List Field) : FieldsKept s s l := fun _ _ => rfl

theorem FieldsKept.mono {s t : State} {l m : List Field} (h : FieldsKept s t l) (hl : l ⊆ m) : FieldsKept s t m :=
  fun f hf => h f fun hm => hf (List.map_subset _ hl hm)

theorem FieldsKept.trans {s t u : State} {l : List Field} (h : FieldsKept s t l) (k : FieldsKept t u l) : FieldsKept s u l :=
  fun f hf => (k f hf).trans (h f hf)

/-- The fields kept depend on the register tables alone. -/
theorem FieldsKept.congr {s t u : State} {l : List Field} (h : FieldsKept s t l) (hc : u.cfg = t.cfg) (hs : u.sts = t.sts) :
    FieldsKept s u l := fun f hf => (rd_congr f hc hs).trans (h f hf)

theorem FieldsKept.wr (s : State) (f : Field) (v : Nat) : FieldsKept s (wr s f v) [f] :=
  fun g hg => rd_wr_ne s v (by simpa using hg)

theorem FieldsKept.bump (s : State) (f : Field) (n : Nat) : FieldsKept s (bump s f n) [f] := .wr s f _

/-- Writing the fields of a list, each with its value, leaves every other field. -/
theorem FieldsKept.foldl_wr (v : Field → Nat) (l : List Field) (s : State) :
    FieldsKept s (l.foldl (fun x f => Machine.wr x f (v f)) s) l := by
  induction l generalizing s with
  | nil => exact .refl s _
  | cons f l ih => exact ((FieldsKept.wr s f _).mono (by simp)).trans ((ih _).mono (by simp))

theorem traceDrop_mem {s : State} {f : Field} (h : traceDrop s = some f) :
    f ∈ [trcDroppedFull, trcDroppedBacklog, trcDroppedAsleep] := by
  unfold traceDrop at h
  split at h
  · cases h; simp
  · split at h
    · cases h; simp
    · split at h
      · cases h; simp
      · cases h

theorem FieldsKept.tracePut (s : State) (r : List Byte) :
    FieldsKept s (tracePut s r) [trcDroppedFull, trcDroppedBacklog, trcDroppedAsleep] := by
  unfold Machine.tracePut
  split
  · next h => exact (FieldsKept.bump s _ 1).mono (by simpa using traceDrop_mem h)
  · exact .refl s _

theorem FieldsKept.setBit (s : State) (e : Ev) : FieldsKept s (setBit s e) (eventFields e.page) := by
  unfold Machine.setBit
  dsimp only
  have h := ((FieldsKept.wr s (hdrEvt e.page) (rd s (hdrEvt e.page) + 2 ^ e.bit)).mono (m := eventFields e.page)
    (by simp [eventFields])).trans ((FieldsKept.wr _ (hdrEvtStamp e.page) (now s)).mono (by simp [eventFields]))
  split
  · exact .refl s _
  · split
    · exact h.trans ((FieldsKept.tracePut _ _).mono (by simp [eventFields]))
    · exact h

/-- An event writes the event fields of its page, and those of TRC when its record is lost. -/
theorem FieldsKept.setEvt (s : State) (e : Ev) : FieldsKept s (setEvt s e) (eventFields e.page) := by
  unfold Machine.setEvt
  dsimp only
  split
  · exact (FieldsKept.setBit s e).trans ((FieldsKept.setBit _ evTrcDrop).mono (by simp [eventFields, evTrcDrop]))
  · exact .setBit s e

theorem FieldsKept.setEvtIf (b : Bool) (s : State) (e : Ev) : FieldsKept s (setEvtIf b s e) (eventFields e.page) := by
  unfold Machine.setEvtIf
  split
  · exact .setEvt s e
  · exact .refl s _

theorem FieldsKept.trace (s : State) (a b c d e f g : Nat) : FieldsKept s (trace s a b c d e f g) (eventFields 0x04) := by
  unfold Machine.trace
  dsimp only
  split
  · have h := (FieldsKept.tracePut s (traceBytes (now s) a b c d e f g)).mono (m := eventFields 0x04) (by simp [eventFields])
    split
    · exact h.trans (.setEvt _ evTrcDrop)
    · exact h
  · exact .refl s _

/-! ### Events stay set -/

/-- Every event bit set in `s` is set in `t`. -/
def EventsStay (s t : State) : Prop := ∀ p b, b < 32 → bitOf (rd s (hdrEvt p)) b = true → bitOf (rd t (hdrEvt p)) b = true

theorem EventsStay.trans {s t u : State} (h : EventsStay s t) (k : EventsStay t u) : EventsStay s u :=
  fun p b hb hs => k p b hb (h p b hb hs)

theorem hdrEvt_key_inj {p q : Nat} (h : fieldKey (hdrEvt p) = fieldKey (hdrEvt q)) : p = q := by
  simp only [fieldKey, hdrEvt] at h; omega

/-- Whether a field lies outside the event registers EVT and EVT_EN of every page. -/
def noEvent (f : Field) : Bool := f.off < 4096 && f.lo < 64 && f.off != 0x020 && f.off != 0x028

theorem noEvent_key_ne {f : Field} (h : noEvent f = true) (p : Nat) :
    fieldKey (hdrEvt p) ≠ fieldKey f ∧ fieldKey (hdrEvtEn p) ≠ fieldKey f := by
  simp only [noEvent, Bool.and_eq_true, decide_eq_true_eq, bne_iff_ne] at h
  simp only [fieldKey, hdrEvt, hdrEvtEn]; omega

/-- Writing fields outside the event registers leaves these. -/
theorem FieldsKept.events {s t : State} {l : List Field} (h : FieldsKept s t l) (hl : ∀ f ∈ l, noEvent f = true) (p : Nat) :
    rd t (hdrEvt p) = rd s (hdrEvt p) ∧ rd t (hdrEvtEn p) = rd s (hdrEvtEn p) := by
  constructor <;> apply h <;> intro hm <;> obtain ⟨f, hf, he⟩ := List.mem_map.mp hm
  · exact (noEvent_key_ne (hl f hf) p).1 he.symm
  · exact (noEvent_key_ne (hl f hf) p).2 he.symm

theorem tracePut_evt (s : State) (r : List Byte) (p : Nat) : rd (tracePut s r) (hdrEvt p) = rd s (hdrEvt p) :=
  ((FieldsKept.tracePut s r).events (by decide) p).1

/-- EVT of a page after an event: the event's bit is added to EVT of its own page. -/
theorem rd_setBit_evt (s : State) (e : Ev) (p : Nat) : rd (setBit s e) (hdrEvt p) =
    if p = e.page ∧ bitOf (rd s (hdrEvt p)) e.bit = false then (rd s (hdrEvt p) + 2 ^ e.bit) % 2 ^ 32 else rd s (hdrEvt p) := by
  have hstamp : fieldKey (hdrEvt p) ≠ fieldKey (hdrEvtStamp e.page) := by simp only [fieldKey, hdrEvt, hdrEvtStamp]; omega
  have hwr : rd (wr (wr s (hdrEvt e.page) (rd s (hdrEvt e.page) + 2 ^ e.bit)) (hdrEvtStamp e.page) (now s)) (hdrEvt p) =
      if p = e.page then (rd s (hdrEvt p) + 2 ^ e.bit) % 2 ^ 32 else rd s (hdrEvt p) := by
    rw [rd_wr_ne _ _ hstamp]
    split
    · next h => subst h; exact rd_wr_self _ (.inr (.inr (.inr rfl)))
    · next h => exact rd_wr_ne _ _ (mt hdrEvt_key_inj h)
  unfold setBit
  dsimp only
  cases hb : bitOf (rd s (hdrEvt e.page)) e.bit
  · rw [if_neg Bool.false_ne_true, apply_ite (rd · (hdrEvt p)), tracePut_evt, ite_self, hwr]
    by_cases hp : p = e.page
    · subst hp; rw [if_pos rfl, if_pos ⟨rfl, hb⟩]
    · rw [if_neg hp, if_neg fun h => hp h.1]
  · rw [if_pos rfl, if_neg]
    rintro ⟨rfl, h⟩
    rw [hb] at h; cases h

theorem EventsStay.setBit (s : State) (e : Ev) : EventsStay s (setBit s e) := by
  intro p b hb hs
  rw [rd_setBit_evt]
  split
  · next h =>
    have hne : b ≠ e.bit := by rintro rfl; rw [h.2] at hs; cases hs
    rw [bitOf_mod_two_pow _ hb, bitOf_add_two_pow_ne h.2 hne]
    exact hs
  · exact hs

theorem setBit_sets {e : Ev} (s : State) (he : e.bit < 32) : bitOf (rd (setBit s e) (hdrEvt e.page)) e.bit = true := by
  rw [rd_setBit_evt]
  split
  · next h => rw [bitOf_mod_two_pow _ he, bitOf_add_two_pow_self h.2]
  · next h => simpa using h

theorem EventsStay.setEvt (s : State) (e : Ev) : EventsStay s (setEvt s e) := by
  unfold Machine.setEvt
  dsimp only
  split
  · exact (EventsStay.setBit s e).trans (.setBit _ _)
  · exact .setBit s e

/-- An event sets its bit (R426). -/
theorem setEvt_sets {e : Ev} (s : State) (he : e.bit < 32) : bitOf (rd (setEvt s e) (hdrEvt e.page)) e.bit = true := by
  unfold setEvt
  dsimp only
  split
  · exact EventsStay.setBit _ _ _ _ he (setBit_sets s he)
  · exact setBit_sets s he

theorem EventsStay.setEvtIf (b : Bool) (s : State) (e : Ev) : EventsStay s (setEvtIf b s e) := by
  unfold Machine.setEvtIf
  split
  · exact .setEvt s e
  · exact fun _ _ _ h => h

theorem setEvtIf_sets {b : Bool} {e : Ev} (s : State) (hb : b = true) (he : e.bit < 32) :
    bitOf (rd (setEvtIf b s e) (hdrEvt e.page)) e.bit = true := by
  rw [setEvtIf, if_pos hb]; exact setEvt_sets s he

/-! ### The end of a step -/

@[simp] theorem rd_settle (s t : State) (f : Field) : rd (settle s t) f = rd t f := rd_congr f (settle_cfg ..) (settle_sts ..)

theorem FieldsKept.settle {s t u : State} {l : List Field} (h : FieldsKept s u l) : FieldsKept s (settle t u) l :=
  h.congr (settle_cfg ..) (settle_sts ..)

/-- No summary changes while the event registers stay (R397). -/
theorem FieldsKept.vecSummary {s t : State} {l : List Field} (h : FieldsKept s t l) (hl : ∀ f ∈ l, noEvent f = true) (v : Nat) :
    vecSummary t v = vecSummary s v := by
  unfold Machine.vecSummary pageIrq
  simp only [h.events hl]

/-- A step sends no message where no vector's summary rises (R398). -/
theorem irqRises_same {s t : State} (h : ∀ v, vecSummary s v = false → vecSummary t v = false) : irqRises s t = t := by
  unfold irqRises
  generalize List.range 4 = l
  induction l with
  | nil => rfl
  | cons v l ih =>
    have hv : (!Machine.vecSummary s v && Machine.vecSummary t v) = false := by
      cases hs : Machine.vecSummary s v
      · rw [h v hs]; rfl
      · rfl
    rw [List.foldl_cons, hv, if_neg Bool.false_ne_true, ih]

theorem FieldsKept.irqRises {s t : State} {l : List Field} (h : FieldsKept s t l) (hl : ∀ f ∈ l, noEvent f = true) : irqRises s t = t :=
  irqRises_same fun v hv => by rw [h.vecSummary hl, hv]

/-- Without the port clock no message is sent (R398). -/
theorem irqRises_asleep {s t : State} (h : portClock t = false) : irqRises s t = t := by
  unfold irqRises
  generalize List.range 4 = l
  induction l with
  | nil => rfl
  | cons v l ih =>
    have hm : irqMessage t v = t := by simp [irqMessage, h]
    rw [List.foldl_cons, hm, ite_self, ih]

/-- What a step has worked out stands at its end but for what it wrote to memory, where no message is sent. -/
theorem settle_silent {s t : State} (hi : irqRises s t = t) (hp : t.pending = s.pending) (hr : t.rbuf = []) :
    settle s t = { t with mem := memDrain s.mem t.wbuf, wbuf := [] } := by
  unfold settle; rw [hi, ← hp, ← hr]

/-- A step that sends no message and writes nothing to memory ends as it stands. -/
theorem settle_dry {s t : State} (hi : irqRises s t = t) (hp : t.pending = s.pending) (hm : t.mem = s.mem) (hw : t.wbuf = [])
    (hr : t.rbuf = []) : settle s t = t := by
  rw [settle_silent hi hp hr, hw, memDrain_nil, ← hm, ← hw]

/-! ### Steps that write registers only -/

/-- A change of the register tables only. -/
def TablesOnly (s t : State) : Prop := t = { s with cfg := t.cfg, sts := t.sts }

theorem TablesOnly.trans {s t u : State} (h : TablesOnly s t) (k : TablesOnly t u) : TablesOnly s u := by
  unfold TablesOnly at *; rw [k, h]

theorem TablesOnly.wr (s : State) (f : Field) (v : Nat) : TablesOnly s (wr s f v) := wr_only s f v

theorem TablesOnly.foldl_wr (v : Field → Nat) (l : List Field) (s : State) :
    TablesOnly s (l.foldl (fun x f => Machine.wr x f (v f)) s) := by
  induction l generalizing s with
  | nil => rfl
  | cons f l ih => exact (TablesOnly.wr s f _).trans (ih _)

/-- A change of the registers and the trace FIFO only. -/
def RegsOnly (s t : State) : Prop := t = { s with cfg := t.cfg, sts := t.sts, trace := t.trace }

theorem RegsOnly.trans {s t u : State} (h : RegsOnly s t) (k : RegsOnly t u) : RegsOnly s u := by
  unfold RegsOnly at *; rw [k, h]

theorem RegsOnly.of_tables {s t : State} (h : TablesOnly s t) : RegsOnly s t := by
  unfold RegsOnly TablesOnly at *; rw [h]

theorem RegsOnly.wr (s : State) (f : Field) (v : Nat) : RegsOnly s (wr s f v) := .of_tables (.wr s f v)

theorem RegsOnly.of_stsTrace {s t : State} (h : StsTrace s t) : RegsOnly s t := by
  unfold RegsOnly StsTrace at *; rw [h]

theorem RegsOnly.setEvt (s : State) (e : Ev) : RegsOnly s (setEvt s e) := .of_stsTrace (.setEvt s e)

theorem RegsOnly.setEvtIf (b : Bool) (s : State) (e : Ev) : RegsOnly s (setEvtIf b s e) := .of_stsTrace (.setEvtIf b s e)

theorem RegsOnly.trace (s : State) (a b c d e f g : Nat) : RegsOnly s (trace s a b c d e f g) := .of_stsTrace (.trace s a b c d e f g)

/-- The end of a step that, from `x`, writes registers only: interrupt messages may follow, and nothing else moves. -/
theorem settle_regs {s x u : State} (h : RegsOnly x u) (hp : x.pending = s.pending) (hm : x.mem = s.mem) (hw : x.wbuf = [])
    (hr : x.rbuf = []) : settle s u = { x with
      cfg := (settle s u).cfg, sts := (settle s u).sts, trace := (settle s u).trace, cport := (settle s u).cport } := by
  obtain ⟨c, a, b, rfl⟩ : ∃ c a b, u = { x with cfg := c, sts := a, trace := b } := ⟨_, _, _, h⟩
  rw [settle_only]
  simp [hp, hm, hw, hr]

/-- The same for a step that writes what the engine sets and nothing that software writes. -/
theorem settle_stsTrace {s x u : State} (h : StsTrace x u) (hp : x.pending = s.pending) (hm : x.mem = s.mem) (hw : x.wbuf = [])
    (hr : x.rbuf = []) : settle s u = { x with
      sts := (settle s u).sts, trace := (settle s u).trace, cport := (settle s u).cport } := by
  obtain ⟨a, b, rfl⟩ : ∃ a b, u = { x with sts := a, trace := b } := ⟨_, _, h⟩
  rw [settle_only]
  simp [hp, hm, hw, hr]

/-! ### Register accesses (R382) -/

/-- The state in which an access that reaches its page has its effect (R382). -/
def granted (s : State) : State := { s with regData := 0, regErr := 0 }

theorem rd_granted (s : State) (f : Field) : rd (granted s) f = rd s f := rfl

theorem Reaches.acts {page : Nat} {s : State} (h : Reaches s page) (f : State → State) :
    portWrite page f s = .next (settle s (f (granted s))) := by
  obtain ⟨haw, hex, has, _, _⟩ := h
  exact portWrite_acts f haw hex has

theorem Reaches.settle_regs {page : Nat} {s u : State} (h : Reaches s page) (hu : RegsOnly (granted s) u) :
    settle s u = { s with
      cfg := (settle s u).cfg, sts := (settle s u).sts, trace := (settle s u).trace, cport := (settle s u).cport
      regData := 0, regErr := 0 } := by
  obtain ⟨_, _, _, hw, hr⟩ := h
  exact Machine.settle_regs hu rfl rfl hw hr

theorem Reaches.settle_stsTrace {page : Nat} {s u : State} (h : Reaches s page) (hu : StsTrace (granted s) u) :
    settle s u = { s with
      sts := (settle s u).sts, trace := (settle s u).trace, cport := (settle s u).cport, regData := 0, regErr := 0 } := by
  obtain ⟨_, _, _, hw, hr⟩ := h
  exact Machine.settle_stsTrace hu rfl rfl hw hr

/-- A register access that has no effect beside its answer. -/
theorem Reaches.settle_granted {page : Nat} {s : State} (h : Reaches s page) : settle s (granted s) = granted s := by
  obtain ⟨_, _, _, hw, hr⟩ := h
  exact settle_still (s := s) rfl rfl rfl rfl hw hr

end Sys2Proof.Machine
end

section
/-! SUPPORT. O2 and O59: what reset leaves, and what the T-port inputs, the resets and the loss of power do (R15, R343, R379 to R381, R402). -/

namespace Sys2Proof.Machine

/-! ### Reset (R15, R379) -/

/-- With empty tables every stored field reads its reset value. -/
theorem rd_of_tables_empty {s : State} {f : Field} (hc : s.cfg = []) (hs : s.sts = []) (hv : f.acc ≠ .view) (hw : f.acc ≠ .wo) :
    rd s f = f.reset := by
  unfold rd
  cases h : f.acc <;> simp_all [tget]

/-- At reset the tables hold one strap alone. -/
theorem rd_reset {f : Field} (hk : fieldKey f ≠ fieldKey glbStrapsFportPresent) (hv : f.acc ≠ .view) (hw : f.acc ≠ .wo) :
    rd State.reset f = f.reset := by
  have h : rd State.reset f = rd { State.reset with sts := [] } f := by
    unfold rd
    have ht : tget 0 State.reset.sts (fieldKey f) = tget 0 [] (fieldKey f) := if_neg (Ne.symm hk)
    rw [ht]
  rw [h, rd_of_tables_empty rfl rfl hv hw]

/-- Settles O2: the state after reset is written out, so every claim but the one about all fields is a value read off it. -/
theorem resetLeavesTheResetState : Obligations.ResetLeavesTheResetState := by
  unfold Obligations.ResetLeavesTheResetState
  exact ⟨⟨rfl, rfl, rfl⟩, rfl, rfl, rfl, rfl, rfl, rfl, rfl, rfl, fun _ => rfl, fun _ => rfl, rfl, fun _ hk hv hw => rd_reset hk hv hw⟩

/-! ### The T-port (R401, R402) -/

theorem tbValidChange_acts (valid : Bool) {s : State} (hw : s.wbuf = []) (hr : s.rbuf = []) :
    ∃ t, exec (.tbValidChange valid) s = .next t ∧ rd t glbTbStatValid = (if valid then 1 else 0) ∧
      (awake s = true → valid = false → bitOf (rd t (hdrEvt 0x00)) 13 = true) ∧ FieldsKept s t (glbTbStatValid :: eventFields 0x00) ∧
      t = { s with sts := t.sts, trace := t.trace, cport := t.cport, tb := { s.tb with valid := valid } } := by
  let x : State := { s with tb := { s.tb with valid := valid } }
  let w := wr x glbTbStatValid (if valid then 1 else 0)
  have hk : FieldsKept s w [glbTbStatValid] := FieldsKept.wr x _ _
  have he := FieldsKept.setEvtIf (awake s && !valid) w evTbLost
  refine ⟨settle s (setEvtIf (awake s && !valid) w evTbLost), rfl, ?_, fun ha hv => ?_, ?_, ?_⟩
  · rw [rd_settle, he glbTbStatValid (by decide), rd_wr_self _ (.inr (.inr (.inl rfl)))]
    cases valid <;> rfl
  · rw [rd_settle]
    exact setEvtIf_sets (e := evTbLost) _ (by simp [ha, hv]) (by decide)
  · exact ((hk.mono (by simp)).trans (he.mono (by simp [evTbLost]))).settle
  · exact settle_stsTrace (x := x) ((StsTrace.wr x _ _ (.inl rfl)).trans (.setEvtIf _ _ _)) rfl rfl hw hr

theorem tbStep_acts (time : BitVec 64) {s : State} (hw : s.wbuf = []) (hr : s.rbuf = []) (ht : s.tb.valid = true ∧ time.toNat < s.tb.time) :
    ∃ t, exec (.tbStep time) s = .next t ∧
      (awake s = true → rd t glbTbStatSteps = satAdd glbTbStatSteps.width (rd s glbTbStatSteps) 1 ∧ bitOf (rd t (hdrEvt 0x00)) 12 = true) ∧
      FieldsKept s t (glbTbStatSteps :: eventFields 0x00) ∧ t = { s with
          sts := t.sts, trace := t.trace, cport := t.cport, tb := { s.tb with time := time.toNat } } := by
  let x : State := { s with tb := { s.tb with time := time.toNat } }
  let w := bump x glbTbStatSteps 1
  have hexec : exec (.tbStep time) s = .next (settle s (if awake s then setEvt w evTbStep else x)) := by
    change execTbStep time s = _
    rw [execTbStep, if_pos (by simp [ht])]
  have hk : FieldsKept s w [glbTbStatSteps] := FieldsKept.bump x _ _
  have he := FieldsKept.setEvt w evTbStep
  refine ⟨_, hexec, fun ha => ⟨?_, ?_⟩, ?_, ?_⟩
  · rw [rd_settle, if_pos ha, he glbTbStatSteps (by decide), rd_bump_self _ (.inr (.inr (.inl rfl))), Nat.mod_eq_of_lt (satAdd_lt _ _ _)]
    rfl
  · rw [rd_settle, if_pos ha]
    exact setEvt_sets (e := evTbStep) _ (by decide)
  · split
    · exact ((hk.mono (by simp)).trans (he.mono (by simp [evTbStep]))).settle
    · exact FieldsKept.settle (fun _ _ => rfl)
  · apply settle_stsTrace (x := x) _ rfl rfl hw hr
    split
    · exact (StsTrace.bump x _ _ (.inl rfl)).trans (.setEvt _ _)
    · exact .refl x

theorem tbStep_waits (time : BitVec 64) {s : State} (ht : s.tb.valid = false ∨ s.tb.time ≤ time.toNat) : exec (.tbStep time) s = .next s := by
  change execTbStep time s = _
  rw [execTbStep, if_neg]
  rcases ht with h | h <;> simp [h]

/-! ### RST_N, WRST_N, OFF (R344, R379 to R381) -/

/-- Writing fields of distinct places leaves each with its value. -/
theorem rd_foldl_wr (v : Field → Nat) {l : List Field} (hd : (l.map fieldKey).Nodup) (hs : ∀ f ∈ l, Stored f) (x : State) {f : Field}
    (hf : f ∈ l) : rd (l.foldl (fun x f => wr x f (v f)) x) f = v f % 2 ^ f.width := by
  induction l generalizing x with
  | nil => cases hf
  | cons g l ih =>
    obtain ⟨hg, hl⟩ := List.nodup_cons.mp hd
    rw [List.foldl_cons]
    rcases List.mem_cons.mp hf with rfl | hf
    · rw [FieldsKept.foldl_wr v l _ f hg, rd_wr_self _ (hs f List.mem_cons_self)]
    · exact ih hl (fun f h => hs f (List.mem_cons_of_mem _ h)) _ hf

/-- Every stored field but those named reads its reset value. -/
def Cleared (t : State) (kept : List Field) : Prop :=
  ∀ f : Field, fieldKey f ∉ kept.map fieldKey → f.acc ≠ .view → f.acc ≠ .wo → rd t f = f.reset

/-- The block is in its reset state but for registers, wrapper, RAS, power state, reset inputs and quiet time; what lies outside the engine is
that of `s`. -/
def Lost (s t : State) : Prop := t = { State.reset with
  pending := s.pending, mem := s.mem, cfg := t.cfg, sts := t.sts, arrFail := s.arrFail, test := t.test, tb := ⟨s.tb.time, s.tb.valid, 0⟩
  power := { powerReset with ack := s.power.ack, state := t.power.state }, ras := t.ras, rstLow := t.rstLow, wrstLow := t.wrstLow
  quiet := t.quiet, free := s.free }

/-- The straps are sampled and no other field changes. -/
def Sampled (p : Straps) (s t : State) : Prop :=
  rd t glbStrapsChipNum = p.chipNum.toNat ∧ rd t glbStrapsFportPresent = p.fports.toNat ∧
    FieldsKept s t [glbStrapsChipNum, glbStrapsFportPresent]

theorem cleared_of_kept {t : State} {kept : List Field} (h : FieldsKept { State.reset with sts := [] } t kept) : Cleared t kept :=
  fun f hf hv hw => (h f hf).trans (rd_of_tables_empty rfl rfl hv hw)

theorem Lost.of_tables {s x t : State} (h : Lost s x) (k : TablesOnly x t) : Lost s t := by
  obtain ⟨c, a, rfl⟩ : ∃ c a, t = { x with cfg := c, sts := a } := ⟨_, _, k⟩
  exact congrArg (fun x : State => { x with cfg := c, sts := a }) h

/-- The reset state beside what lies outside the engine, before the fields that follow inputs are written. -/
def resetBase (s : State) : State := { State.reset with
  pending := s.pending, mem := s.mem, sts := [], arrFail := s.arrFail, test := s.test, tb := ⟨s.tb.time, s.tb.valid, 0⟩
  power := { powerReset with ack := s.power.ack }, rstLow := s.rstLow, wrstLow := s.wrstLow, free := s.free }

theorem resetTo_tables (s : State) : TablesOnly (resetBase s) (resetTo s) :=
  (TablesOnly.wr (resetBase s) glbTbStatValid (if s.tb.valid then 1 else 0)).trans (.wr _ pwrBudgetHost (rd s pwrBudgetHost))

theorem resetTo_kept (s : State) : FieldsKept { State.reset with sts := [] } (resetTo s) [glbTbStatValid, pwrBudgetHost] :=
  FieldsKept.trans ((FieldsKept.wr { State.reset with sts := [] } glbTbStatValid (if s.tb.valid then 1 else 0)).mono (by simp))
    ((FieldsKept.wr _ pwrBudgetHost (rd s pwrBudgetHost)).mono (by simp))

theorem resetTo_cfg (s : State) : (resetTo s).cfg = [] := by
  rw [resetTo, wr_cfg_ro _ _ _ (.inl rfl), wr_cfg_ro _ _ _ (.inl rfl)]
  rfl

/-- A step that leaves a state without clocks sends no message. -/
theorem settle_clockless {s x t : State} (h : TablesOnly x t) (hc : x.power.clk = .stopped) (hp : x.pending = s.pending)
    (hm : x.mem = s.mem) (hw : x.wbuf = []) (hr : x.rbuf = []) : settle s t = t := by
  have hclk : t.power.clk = .stopped := by rw [h]; exact hc
  exact settle_dry (irqRises_asleep (by simp [portClock, hclk])) (by rw [h]; exact hp) (by rw [h]; exact hm) (by rw [h]; exact hw)
    (by rw [h]; exact hr)

/-- What RST_N leaves beside registers. -/
def rstOver (s x : State) : State := { x with rstLow := true, test := { s.test with disturbed := false } }

theorem rstAssert_tables (s : State) : TablesOnly (rstOver s (resetBase s)) (rstAssert s) :=
  congrArg (rstOver s) (resetTo_tables s)

theorem rstN_asserts (p : Straps) {s : State} (h : s.rstLow = false) : ∃ t, exec (.rstN true p) s = .next t ∧ Lost s t ∧
    Cleared t [glbTbStatValid, pwrBudgetHost] ∧ t.cfg = [] ∧ t.ras = rasReset ∧ t.power.state = .keep ∧ t.rstLow = true ∧
    t.wrstLow = s.wrstLow ∧ t.quiet = 0 ∧ t.test = { s.test with disturbed := false } := by
  have ht := rstAssert_tables s
  have hexec : exec (.rstN true p) s = .next (rstAssert s) := by
    change execRstN true p s = _
    simp [execRstN, h, settle_clockless (s := s) ht rfl rfl rfl rfl rfl]
  have hk : FieldsKept _ (rstAssert s) _ := (resetTo_kept s).congr rfl rfl
  refine ⟨_, hexec, Lost.of_tables (x := rstOver s (resetBase s)) rfl ht, cleared_of_kept hk, resetTo_cfg s, ?_⟩
  rw [ht]
  exact ⟨rfl, rfl, rfl, rfl, rfl, rfl⟩

/-- What POWER_LOSS leaves beside registers (R344). -/
def offOver (x : State) : State :=
  { x with rstLow := false, wrstLow := false, test := testReset, power := { x.power with state := .off } }

theorem powerLoss_acts (s : State) : ∃ t, exec .powerLoss s = .next t ∧ Lost s t ∧ Cleared t [glbTbStatValid, pwrBudgetHost] ∧
    t.ras = rasReset ∧ t.power.state = .off ∧ t.rstLow = false ∧ t.wrstLow = false ∧ t.test = testReset := by
  have ht : TablesOnly (offOver (resetBase s)) (offOver (resetTo s)) := congrArg offOver (resetTo_tables s)
  have hexec : exec .powerLoss s = .next (settle s (offOver (resetTo s))) := rfl
  rw [settle_clockless (s := s) ht rfl rfl rfl rfl rfl] at hexec
  have hk : FieldsKept _ (offOver (resetTo s)) _ := (resetTo_kept s).congr rfl rfl
  refine ⟨_, hexec, Lost.of_tables (x := offOver (resetBase s)) rfl ht, cleared_of_kept hk, ?_⟩
  rw [ht]
  exact ⟨rfl, rfl, rfl, rfl, rfl⟩

/-- The fields that WRST_N's assertion leaves at other values than their reset values. -/
def wrstFields : List Field := wrstKept ++ [glbTbStatValid, pwrBudgetHost, glbResetStatCause, glbResetStatWrsts]

/-- The registers after WRST_N's assertion: those of a reset, with the fields it keeps and RESET_STAT written (R380, R432). -/
def wrstRegs (s : State) : State :=
  wr (wr (wrstKept.foldl (fun x f => wr x f (rd s f)) (resetTo s)) glbResetStatCause 1) glbResetStatWrsts
    (satAdd 16 (rd s glbResetStatWrsts) 1)

theorem wrstRegs_tables (s : State) : TablesOnly (resetBase s) (wrstRegs s) :=
  ((resetTo_tables s).trans (.foldl_wr (rd s) wrstKept _)).trans ((TablesOnly.wr _ glbResetStatCause 1).trans (.wr _ glbResetStatWrsts _))

theorem wrstRegs_kept (s : State) : FieldsKept { State.reset with sts := [] } (wrstRegs s) wrstFields :=
  (((resetTo_kept s).mono (by simp [wrstFields])).trans ((FieldsKept.foldl_wr (rd s) wrstKept _).mono (by simp [wrstFields]))).trans
    (((FieldsKept.wr _ glbResetStatCause 1).mono (by simp [wrstFields])).trans
      ((FieldsKept.wr _ glbResetStatWrsts _).mono (by simp [wrstFields])))

theorem rd_wrstRegs_kept (s : State) {f : Field} (hf : f ∈ wrstKept) : rd (wrstRegs s) f = rd s f % 2 ^ f.width := by
  have hkey : ∀ f ∈ wrstKept, fieldKey f ≠ fieldKey glbResetStatWrsts ∧ fieldKey f ≠ fieldKey glbResetStatCause ∧ Stored f := by
    simp [wrstKept, Stored, fieldKey, rasLogHeadCount, rasLogTailCount, rasLogLostCe, rasLogLostUe, rasArrFailArrays, glbResetStatWrsts,
      glbResetStatCause]
  rw [wrstRegs, rd_wr_ne _ _ (hkey f hf).1, rd_wr_ne _ _ (hkey f hf).2.1,
    rd_foldl_wr (rd s) (by decide) (fun f hf => (hkey f hf).2.2) _ hf]

theorem rd_wrstRegs_cause (s : State) : rd (wrstRegs s) glbResetStatCause = 1 := by
  rw [wrstRegs, rd_wr_ne _ _ (by decide), rd_wr_self _ (.inr (.inr (.inl rfl)))]
  rfl

theorem rd_wrstRegs_wrsts (s : State) : rd (wrstRegs s) glbResetStatWrsts = satAdd 16 (rd s glbResetStatWrsts) 1 := by
  rw [wrstRegs, rd_wr_self _ (.inr (.inr (.inl rfl)))]
  exact Nat.mod_eq_of_lt (satAdd_lt 16 _ _)

/-- What WRST_N leaves beside registers. -/
def wrstOver (s x : State) : State :=
  { x with wrstLow := true, quiet := if s.txAwait.isEmpty then s.quiet else 4096
           ras := { rasReset with log := s.ras.log, buckets := s.ras.buckets, banks := s.ras.banks } }

theorem wrstAssert_eq (s : State) : wrstAssert s = wrstOver s (wrstRegs s) := by
  unfold wrstAssert wrstOver wrstRegs
  rfl

theorem wrstAssert_tables (s : State) : TablesOnly (wrstOver s (resetBase s)) (wrstAssert s) := by
  rw [wrstAssert_eq]
  exact congrArg (wrstOver s) (wrstRegs_tables s)

theorem rd_wrstAssert (s : State) (f : Field) : rd (wrstAssert s) f = rd (wrstRegs s) f := by
  rw [wrstAssert_eq]
  exact rd_congr f rfl rfl

theorem wrstN_asserts (p : Straps) {s : State} (hoff : s.power.state ≠ .off) (hr : s.rstLow = false) (hw : s.wrstLow = false) :
    ∃ t, exec (.wrstN true p) s = .next t ∧ Lost s t ∧ Cleared t wrstFields ∧ (∀ f ∈ wrstKept, rd t f = rd s f % 2 ^ f.width) ∧
      rd t glbResetStatCause = 1 ∧ rd t glbResetStatWrsts = satAdd 16 (rd s glbResetStatWrsts) 1 ∧
      t.ras = { rasReset with log := s.ras.log, buckets := s.ras.buckets, banks := s.ras.banks } ∧ t.power.state = .keep ∧
      t.rstLow = false ∧ t.wrstLow = true ∧ t.quiet = (if s.txAwait.isEmpty then s.quiet else 4096) ∧ t.test = s.test := by
  have ht := wrstAssert_tables s
  have hexec : exec (.wrstN true p) s = .next (wrstAssert s) := by
    change execWrstN true p s = _
    simp [execWrstN, hoff, hr, hw, settle_clockless (s := s) ht rfl rfl rfl rfl rfl]
  refine ⟨_, hexec, Lost.of_tables (x := wrstOver s (resetBase s)) rfl ht,
    cleared_of_kept fun f hf => (rd_wrstAssert s f).trans (wrstRegs_kept s f hf), ?_⟩
  simp only [rd_wrstAssert]
  refine ⟨fun f hf => rd_wrstRegs_kept s hf, rd_wrstRegs_cause s, rd_wrstRegs_wrsts s, ?_⟩
  rw [ht]
  exact ⟨rfl, rfl, hr, rfl, rfl, rfl⟩

theorem sampleStraps_only (s : State) (p : Straps) : sampleStraps s p = { s with sts := (sampleStraps s p).sts } := rfl

theorem sampleStraps_sampled (s : State) (p : Straps) : Sampled p s (sampleStraps s p) := by
  refine ⟨?_, ?_, ?_⟩
  · rw [sampleStraps, rd_wr_ne _ _ (by decide), rd_wr_self _ (.inr (.inr (.inl rfl)))]
    exact Nat.mod_eq_of_lt p.chipNum.isLt
  · rw [sampleStraps, rd_wr_self _ (.inr (.inr (.inl rfl)))]
    exact Nat.mod_eq_of_lt p.fports.isLt
  · exact ((FieldsKept.wr s glbStrapsChipNum p.chipNum.toNat).mono (by simp)).trans
      ((FieldsKept.wr _ glbStrapsFportPresent p.fports.toNat).mono (by simp))

/-- A step that only changes the levels of the reset inputs ends as it stands. -/
theorem settle_levels {s : State} (a b : Bool) (hw : s.wbuf = []) (hr : s.rbuf = []) :
    settle s { s with rstLow := a, wrstLow := b } = { s with rstLow := a, wrstLow := b } := settle_still rfl rfl rfl rfl hw hr

/-- The last reset to end samples the straps (R381), and nothing else changes but the level of its input. -/
theorem settle_resetEnd (p : Straps) {s : State} (a b : Bool) (hw : s.wbuf = []) (hr : s.rbuf = []) (hd : s.test.disturbed = false) :
    settle s (resetEnd { s with rstLow := a, wrstLow := b } p) = sampleStraps { s with rstLow := a, wrstLow := b } p := by
  have hs : resetEnd { s with rstLow := a, wrstLow := b } p = sampleStraps { s with rstLow := a, wrstLow := b } p :=
    if_neg (by simp [hd])
  have hk := (sampleStraps_sampled { s with rstLow := a, wrstLow := b } p).2.2
  rw [hs]
  exact settle_dry (FieldsKept.irqRises (s := s) hk (by decide)) rfl rfl hw hr

theorem rstN_ends (p : Straps) {s : State} (hw : s.wbuf = []) (hr : s.rbuf = []) (h : s.rstLow = true) (hwr : s.wrstLow = false)
    (hd : s.test.disturbed = false) : ∃ t, exec (.rstN false p) s = .next t ∧ Sampled p s t ∧ t = { s with sts := t.sts, rstLow := false } := by
  have hexec : exec (.rstN false p) s = .next (settle s (resetEnd { s with rstLow := false } p)) := by
    change execRstN false p s = _
    simp [execRstN, h, hwr]
  rw [settle_resetEnd p false s.wrstLow hw hr hd] at hexec
  exact ⟨_, hexec, sampleStraps_sampled { s with rstLow := false } p, sampleStraps_only ..⟩

theorem wrstN_ends (p : Straps) {s : State} (hw : s.wbuf = []) (hr : s.rbuf = []) (hoff : s.power.state ≠ .off) (h : s.rstLow = false)
    (hwr : s.wrstLow = true) (hd : s.test.disturbed = false) :
    ∃ t, exec (.wrstN false p) s = .next t ∧ Sampled p s t ∧ t = { s with sts := t.sts, wrstLow := false } := by
  have hexec : exec (.wrstN false p) s = .next (settle s (resetEnd { s with wrstLow := false } p)) := by
    change execWrstN false p s = _
    simp [execWrstN, hoff, h, hwr]
  rw [settle_resetEnd p s.rstLow false hw hr hd] at hexec
  exact ⟨_, hexec, sampleStraps_sampled { s with wrstLow := false } p, sampleStraps_only ..⟩

/-- With the other reset asserted, an edge of RST_N or WRST_N changes the level of its input alone. -/
theorem rstN_ends_under_wrst (p : Straps) {s : State} (hw : s.wbuf = []) (hr : s.rbuf = []) (h : s.rstLow = true)
    (hwr : s.wrstLow = true) : exec (.rstN false p) s = .next { s with rstLow := false } := by
  have hexec : exec (.rstN false p) s = .next (settle s { s with rstLow := false }) := by
    change execRstN false p s = _
    simp [execRstN, h, hwr]
  rw [hexec]
  exact congrArg Host.Outcome.next (settle_levels false s.wrstLow hw hr)

theorem wrstN_asserts_under_rst (p : Straps) {s : State} (hw : s.wbuf = []) (hr : s.rbuf = []) (hoff : s.power.state ≠ .off)
    (h : s.rstLow = true) (hwr : s.wrstLow = false) : exec (.wrstN true p) s = .next { s with wrstLow := true } := by
  have hexec : exec (.wrstN true p) s = .next (settle s { s with wrstLow := true }) := by
    change execWrstN true p s = _
    simp [execWrstN, hoff, h, hwr]
  rw [hexec]
  exact congrArg Host.Outcome.next (settle_levels s.rstLow true hw hr)

/-- An edge of RST_N to the level it has changes nothing (log 4). -/
theorem rstN_same (p : Straps) {s : State} (b : Bool) (h : s.rstLow = b) : exec (.rstN b p) s = .next s := by
  change execRstN b p s = _
  cases b <;> simp [execRstN, h]

theorem wrstN_off (p : Straps) {s : State} (h : s.power.state = .off) (low : Bool) : exec (.wrstN low p) s = .next s := by
  change execWrstN low p s = _
  simp [execWrstN, h]

/-- Settles O59, one lemma for each input and edge: TB_VALID_CHANGE, TB_STEP, then RST_N and WRST_N by the levels of both, and the loss of
power. -/
theorem inputsAndResetsAct : Obligations.InputsAndResetsAct := by
  unfold Obligations.InputsAndResetsAct
  refine ⟨fun valid s hw hr => tbValidChange_acts valid hw hr, fun time s hw hr => ⟨tbStep_acts time hw hr, tbStep_waits time⟩,
    fun p s hw hr => ?_⟩
  exact ⟨rstN_asserts p, rstN_same p true, rstN_ends p hw hr, fun h hwr => ⟨_, rstN_ends_under_wrst p hw hr h hwr, rfl⟩,
    rstN_same p false, wrstN_asserts p, fun hoff h hwr => ⟨_, wrstN_asserts_under_rst p hw hr hoff h hwr, rfl⟩, wrstN_ends p hw hr,
    wrstN_off p, powerLoss_acts s⟩

end Sys2Proof.Machine
end

section
/-! SUPPORT. O49: a register write sets the register's fields one after the other, each on its own (R13, R14, R424). -/

namespace Sys2Proof.Machine

/-! ### Register writes field by field (R13, R14, R424) -/

/-- What a register write does to one field that is no W1C field and not EVT_EN. -/
theorem writeField_cases {f : Field} (v : Nat) (s : State) (hw : f.acc ≠ .w1c) (ho : f.off ≠ 0x028) :
    (f.acc = .rw ∧ fieldLegal f (bitsOf v f.lo f.width) = true ∧ writeField v s f = wr s f (bitsOf v f.lo f.width)) ∨
    (f.acc = .rw ∧ fieldLegal f (bitsOf v f.lo f.width) = false ∧ writeField v s f = setEvt s (evBadValue f.page)) ∨
    (f.acc ≠ .rw ∧ writeField v s f = s) := by
  unfold writeField
  cases ha : f.acc
  case rw => cases hl : fieldLegal f (bitsOf v f.lo f.width) <;> simp [ho, hl]
  case w1c => exact absurd ha hw
  all_goals simp

/-- A field the engine sets depends on `sts` alone. -/
theorem rd_congr_ro {s t : State} {f : Field} (hf : f.acc = .ro ∨ f.acc = .w1c) (hs : t.sts = s.sts) : rd t f = rd s f := by
  unfold rd; rcases hf with h | h <;> rw [h, hs]

theorem EventsStay.wr_rw (s : State) {f : Field} (v : Nat) (hf : f.acc = .rw) : EventsStay s (wr s f v) :=
  fun p _ _ h => by rw [rd_congr_ro (f := hdrEvt p) (.inr rfl) (wr_sts_rw s f v (.inl hf))]; exact h

theorem RegsOnly.writeField {f : Field} (v : Nat) (s : State) (hw : f.acc ≠ .w1c) (ho : f.off ≠ 0x028) :
    RegsOnly s (writeField v s f) := by
  rcases writeField_cases v s hw ho with ⟨_, _, h⟩ | ⟨_, _, h⟩ | ⟨_, h⟩ <;> rw [h]
  · exact .wr ..
  · exact .setEvt ..
  · rfl

theorem EventsStay.writeField {f : Field} (v : Nat) (s : State) (hw : f.acc ≠ .w1c) (ho : f.off ≠ 0x028) :
    EventsStay s (writeField v s f) := by
  rcases writeField_cases v s hw ho with ⟨ha, _, h⟩ | ⟨_, _, h⟩ | ⟨_, h⟩ <;> rw [h]
  · exact .wr_rw s _ ha
  · exact .setEvt s _
  · exact fun _ _ _ h => h

theorem FieldsKept.writeField {f : Field} (v : Nat) (s : State) (hw : f.acc ≠ .w1c) (ho : f.off ≠ 0x028) :
    FieldsKept s (writeField v s f) ([f].filter (fun f => f.acc == .rw) ++ eventFields f.page) := by
  rcases writeField_cases v s hw ho with ⟨ha, _, h⟩ | ⟨_, _, h⟩ | ⟨_, h⟩ <;> rw [h]
  · exact (FieldsKept.wr s f _).mono (by simp [ha])
  · exact (FieldsKept.setEvt s (evBadValue f.page)).mono (by simp [evBadValue])
  · exact .refl s _

/-- A field that software writes is left by the write of a field at another place. -/
theorem rd_writeField_ne {f g : Field} (v : Nat) (s : State) (hw : f.acc ≠ .w1c) (ho : f.off ≠ 0x028) (hg : g.acc = .rw)
    (hk : fieldKey g ≠ fieldKey f) : rd (writeField v s f) g = rd s g := by
  rcases writeField_cases v s hw ho with ⟨_, _, h⟩ | ⟨_, _, h⟩ | ⟨_, h⟩ <;> rw [h]
  · exact rd_wr_ne s _ hk
  · exact rd_congr_rw (.inl hg) (setEvt_cfg ..)

/-- The fields of a list lie on one page and are neither W1C nor EVT_EN. -/
def PlainFields (page : Nat) (l : List Field) : Prop := ∀ f ∈ l, f.page = page ∧ f.acc ≠ .w1c ∧ f.off ≠ 0x028

theorem PlainFields.tail {page : Nat} {f : Field} {l : List Field} (h : PlainFields page (f :: l)) : PlainFields page l :=
  fun g hg => h g (List.mem_cons_of_mem _ hg)

theorem RegsOnly.writeAll {page : Nat} {l : List Field} (v : Nat) (s : State) (h : PlainFields page l) :
    RegsOnly s (l.foldl (Machine.writeField v) s) := by
  induction l generalizing s with
  | nil => rfl
  | cons f l ih =>
    obtain ⟨_, hw, ho⟩ := h f List.mem_cons_self
    exact (RegsOnly.writeField v s hw ho).trans (ih _ h.tail)

theorem EventsStay.writeAll {page : Nat} {l : List Field} (v : Nat) (s : State) (h : PlainFields page l) :
    EventsStay s (l.foldl (Machine.writeField v) s) := by
  induction l generalizing s with
  | nil => exact fun _ _ _ h => h
  | cons f l ih =>
    obtain ⟨_, hw, ho⟩ := h f List.mem_cons_self
    exact (EventsStay.writeField v s hw ho).trans (ih _ h.tail)

theorem FieldsKept.writeAll {page : Nat} {l : List Field} (v : Nat) (s : State) (h : PlainFields page l) :
    FieldsKept s (l.foldl (Machine.writeField v) s) (l.filter (fun f => f.acc == .rw) ++ eventFields page) := by
  induction l generalizing s with
  | nil => exact .refl s _
  | cons f l ih =>
    obtain ⟨rfl, hw, ho⟩ := h f List.mem_cons_self
    have hsub : ∀ m, m ⊆ f :: l → m.filter (fun f => f.acc == .rw) ++ eventFields f.page ⊆
        (f :: l).filter (fun f => f.acc == .rw) ++ eventFields f.page := fun m hm =>
      List.append_subset.mpr ⟨List.subset_append_of_subset_left _ (List.filter_subset _ hm), List.subset_append_right _ _⟩
    exact ((FieldsKept.writeField v s hw ho).mono (hsub [f] (by simp))).trans ((ih _ h.tail).mono (hsub l (by simp)))

theorem rd_writeAll_ne {page : Nat} {l : List Field} (v : Nat) (s : State) (h : PlainFields page l) {g : Field} (hg : g.acc = .rw)
    (hk : fieldKey g ∉ l.map fieldKey) : rd (l.foldl (writeField v) s) g = rd s g := by
  induction l generalizing s with
  | nil => rfl
  | cons f l ih =>
    obtain ⟨_, hw, ho⟩ := h f List.mem_cons_self
    rw [List.map_cons, List.mem_cons, not_or] at hk
    rw [List.foldl_cons, ih _ h.tail hk.2, rd_writeField_ne v s hw ho hg hk.1]

/-- Among fields of distinct places, one that is written takes its bits, and one given a reserved encoding stays and sets BAD_VALUE. -/
theorem rd_writeAll {page : Nat} {l : List Field} (v : Nat) (s : State) (h : PlainFields page l) (hd : (l.map fieldKey).Nodup)
    {f : Field} (hf : f ∈ l) (ha : f.acc = .rw) :
    (fieldLegal f (bitsOf v f.lo f.width) = true → rd (l.foldl (writeField v) s) f = bitsOf v f.lo f.width) ∧
    (fieldLegal f (bitsOf v f.lo f.width) = false → rd (l.foldl (writeField v) s) f = rd s f ∧
      bitOf (rd (l.foldl (writeField v) s) (hdrEvt page)) 1 = true) := by
  induction l generalizing s with
  | nil => cases hf
  | cons g l ih =>
    obtain ⟨hp, hw, ho⟩ := h g List.mem_cons_self
    obtain ⟨hg, hl⟩ := List.nodup_cons.mp hd
    rw [List.foldl_cons]
    rcases List.mem_cons.mp hf with rfl | hf
    · rw [rd_writeAll_ne v _ h.tail ha hg]
      rcases writeField_cases v s hw ho with ⟨_, hx, e⟩ | ⟨_, hx, e⟩ | ⟨hx, _⟩
      · rw [e, rd_wr_self _ (.inl ha), Nat.mod_eq_of_lt (bitsOf_lt ..), hx]
        exact ⟨fun _ => rfl, nofun⟩
      · rw [e, hx]
        refine ⟨nofun, fun _ => ⟨rd_congr_rw (.inl ha) (setEvt_cfg ..), ?_⟩⟩
        exact EventsStay.writeAll v _ h.tail _ _ (by decide) (hp ▸ setEvt_sets (e := evBadValue f.page) s (show 1 < 32 by decide))
      · exact absurd ha hx
    · have hne : fieldKey f ≠ fieldKey g := fun e => hg (e ▸ List.mem_map_of_mem hf)
      have ih := ih (writeField v s g) h.tail hl hf
      rwa [rd_writeField_ne v s hw ho ha hne] at ih

/-! ### The pages of O49 -/

/-- The fields of the five pages: their own, without W1C, from offset 0x100 on, at distinct places. -/
theorem pageFields_plain : ∀ page ∈ [0x05, 0x06, 0x0B, 0x0C, 0x0D],
    ((hdrFields page ++ ownFields page).map fieldKey).Nodup ∧
      ∀ f ∈ hdrFields page ++ ownFields page, f.page = page ∧ (0x100 ≤ f.off → f.acc ≠ .w1c) := by
  decide

theorem regFields_plain {page off : Nat} (hp : page ∈ [0x05, 0x06, 0x0B, 0x0C, 0x0D]) (ho : 0x100 ≤ off) :
    PlainFields page (regFields page off) ∧ ((regFields page off).map fieldKey).Nodup := by
  obtain ⟨hd, hf⟩ := pageFields_plain page hp
  refine ⟨fun f hm => ?_, (List.filter_sublist.map fieldKey).nodup hd⟩
  obtain ⟨hm, e⟩ := List.mem_filter.mp hm
  have e : f.off = off := by simpa using e
  exact ⟨(hf f hm).1, (hf f hm).2 (by omega), by omega⟩

/-- The registers of the five pages have no behaviour of their own. -/
theorem writeReg_plain {page off : Nat} (v : Nat) (s : State) (hp : page ∈ [0x05, 0x06, 0x0B, 0x0C, 0x0D]) (ho : 0x100 ≤ off) :
    writeReg page off v s = (regFields page off).foldl (writeField v) s := by
  unfold writeReg
  rw [if_neg (by omega), if_neg (by omega)]
  simp only [List.mem_cons, List.not_mem_nil, or_false] at hp
  rcases hp with rfl | rfl | rfl | rfl | rfl <;> rfl

/-- Settles O49, by induction on the fields of the register. -/
theorem regWriteSetsItsFields : Obligations.RegWriteSetsItsFields := by
  unfold Obligations.RegWriteSetsItsFields
  intro addr v s page off hp hlo hhi haddr hreach
  obtain ⟨hplain, hnodup⟩ := regFields_plain hp hlo
  let u := (regFields page off).foldl (writeField v.toNat) (granted s)
  have hexec : exec (.regWrite addr v) s = .next (settle s u) := by
    change execRegWrite addr v s = _
    have hpage : addr.toNat * 8 / 4096 = page := by omega
    have hoff : addr.toNat * 8 % 4096 = off := by omega
    rw [execRegWrite]
    simp only [hpage, hoff]
    rw [hreach.acts, writeReg_plain _ _ hp hlo]
  have hrd := fun f hf ha => rd_writeAll (f := f) v.toNat (granted s) hplain hnodup hf ha
  refine ⟨settle s u, hexec, fun f hf ha hl => ?_, fun f hf ha hl => ?_, ?_, ?_⟩
  · rw [rd_settle]; exact (hrd f hf ha).1 hl
  · rw [rd_settle, rd_settle]; exact (hrd f hf ha).2 hl
  · exact (FieldsKept.writeAll v.toNat (granted s) hplain).settle (s := s)
  · exact hreach.settle_regs (RegsOnly.writeAll v.toNat (granted s) hplain)

end Sys2Proof.Machine
end

section
/-! SUPPORT. O51: ARRAY_LIVE is written once, RISK.LEVEL may fire the armed SNAP, ARM and DISARM act by its state (R108, R109, R334, R342). -/

namespace Sys2Proof.Machine

/-! ### GLB: ARRAY_LIVE (R108, R109) -/

/-- ARRAY_LIVE is locked: the write sets LOCKED_WRITE alone. -/
theorem arrayLiveWrite_locked (v : Word) {s : State} (h : Reaches s 0x00) (hl : rd s glbArrayLiveLocked = 1) :
    ∃ t, exec (.arrayLiveWrite v) s = .next t ∧ bitOf (rd t (hdrEvt 0x00)) 0 = true ∧ FieldsKept s t (eventFields 0x00) ∧
      t = { s with sts := t.sts, trace := t.trace, cport := t.cport, regData := 0, regErr := 0 } := by
  have hexec : exec (.arrayLiveWrite v) s = .next (settle s (setEvt (granted s) (evLockedWrite 0x00))) :=
    (h.acts _).trans (by rw [writeArrayLive, rd_granted, if_pos hl])
  refine ⟨_, hexec, ?_, ?_, h.settle_stsTrace (.setEvt _ _)⟩
  · rw [rd_settle]; exact setEvt_sets (e := evLockedWrite 0x00) _ (by decide)
  · exact (FieldsKept.setEvt (granted s) (evLockedWrite 0x00)).settle (s := s)

/-- The grade that a written value leaves (R13, R108). -/
def gradeOf (v : Nat) : Nat := if bitsOf v 24 4 ≤ 4 then bitsOf v 24 4 else 0

theorem fieldLegal_iff (f : Field) (v : Nat) : fieldLegal f v = true ↔ (f.min ≤ v ∧ v ≤ f.max) ∨ (f.zeroOk = true ∧ v = 0) := by
  simp [fieldLegal]

theorem gradeLegal_iff (g : Nat) : fieldLegal glbArrayLiveGrade g = true ↔ g ≤ 4 := by
  rw [fieldLegal_iff]; simp [glbArrayLiveGrade]

/-- Map and grade are inconsistent as R109 says. -/
theorem mapBad_iff (live g : Nat) : mapBad live (if g ≤ 4 then g else 0) = true ↔
    g = 0 ∨ 4 < g ∨ (g = 1 ∧ popcount live 24 ≠ 24) ∨ (g = 2 ∧ popcount live 24 ≠ 22) ∨ (g = 3 ∧ popcount live 24 ≠ 20) ∨
      (g = 4 ∧ popcount live 24 ≠ 16) ∨ ∃ c < 6, popcount (bitsOf live (4 * c) 4) 4 < 2 := by
  by_cases hg : g ≤ 4
  · have hcase : g = 0 ∨ g = 1 ∨ g = 2 ∨ g = 3 ∨ g = 4 := by omega
    rcases hcase with rfl | rfl | rfl | rfl | rfl <;> simp [mapBad, gradeCount]
  · simp [mapBad, hg, Nat.lt_of_not_le hg]

/-- The fields of ARRAY_LIVE after its first write, before the events. -/
def liveWritten (v : Nat) (s : State) : State :=
  wr (wr (wr (wr s glbArrayLiveLive (bitsOf v 0 24)) glbArrayLiveGrade (gradeOf v)) glbArrayLiveLocked 1) glbArrayLiveMapBad
    (if mapBad (bitsOf v 0 24) (gradeOf v) then 1 else 0)

def liveFields : List Field := [glbArrayLiveLive, glbArrayLiveGrade, glbArrayLiveLocked, glbArrayLiveMapBad]

theorem writeArrayLive_first {v : Nat} {s : State} (hl : rd s glbArrayLiveLocked ≠ 1) : writeArrayLive v s =
    setEvtIf (mapBad (bitsOf v 0 24) (gradeOf v)) (setEvtIf (!(fieldLegal glbArrayLiveGrade (bitsOf v 24 4))) (liveWritten v s)
      (evBadValue 0x00)) evMapBad := by
  have hg : (if fieldLegal glbArrayLiveGrade (bitsOf v 24 4) then bitsOf v 24 4 else 0) = gradeOf v := by
    simp only [gradeLegal_iff, gradeOf]
  rw [writeArrayLive, if_neg hl]
  simp only [hg]
  rfl

theorem FieldsKept.liveWritten (v : Nat) (s : State) : FieldsKept s (liveWritten v s) liveFields :=
  (((FieldsKept.wr s _ _).mono (by simp [liveFields])).trans ((FieldsKept.wr _ _ _).mono (by simp [liveFields]))).trans
    (((FieldsKept.wr _ _ _).mono (by simp [liveFields])).trans ((FieldsKept.wr _ _ _).mono (by simp [liveFields])))

theorem RegsOnly.liveWritten (v : Nat) (s : State) : RegsOnly s (liveWritten v s) :=
  ((RegsOnly.wr s _ _).trans (.wr _ _ _)).trans ((RegsOnly.wr _ _ _).trans (.wr _ _ _))

theorem rd_liveWritten (v : Nat) (s : State) :
    rd (liveWritten v s) glbArrayLiveLive = bitsOf v 0 24 ∧ rd (liveWritten v s) glbArrayLiveGrade = gradeOf v ∧
      rd (liveWritten v s) glbArrayLiveLocked = 1 ∧
      (rd (liveWritten v s) glbArrayLiveMapBad = 1 ↔ mapBad (bitsOf v 0 24) (gradeOf v) = true) := by
  have hg : gradeOf v < 2 ^ 4 := by unfold gradeOf; split <;> omega
  unfold liveWritten
  refine ⟨?_, ?_, ?_, ?_⟩
  · rw [rd_wr_ne _ _ (by decide), rd_wr_ne _ _ (by decide), rd_wr_ne _ _ (by decide), rd_wr_self _ (.inr (.inl rfl))]
    exact Nat.mod_eq_of_lt (bitsOf_lt v 0 24)
  · rw [rd_wr_ne _ _ (by decide), rd_wr_ne _ _ (by decide), rd_wr_self _ (.inr (.inl rfl))]
    exact Nat.mod_eq_of_lt hg
  · rw [rd_wr_ne _ _ (by decide), rd_wr_self _ (.inr (.inr (.inl rfl)))]
    rfl
  · rw [rd_wr_self _ (.inr (.inr (.inl rfl)))]
    cases mapBad (bitsOf v 0 24) (gradeOf v) <;> decide

/-- The first write of ARRAY_LIVE. -/
theorem arrayLiveWrite_first (v : Word) {s : State} (h : Reaches s 0x00) (hl : rd s glbArrayLiveLocked ≠ 1) :
    ∃ t, exec (.arrayLiveWrite v) s = .next t ∧ rd t glbArrayLiveLive = bitsOf v.toNat 0 24 ∧ rd t glbArrayLiveLocked = 1 ∧
      rd t glbArrayLiveGrade = gradeOf v.toNat ∧ (4 < bitsOf v.toNat 24 4 → bitOf (rd t (hdrEvt 0x00)) 1 = true) ∧
      (rd t glbArrayLiveMapBad = 1 ↔ mapBad (bitsOf v.toNat 0 24) (gradeOf v.toNat) = true) ∧
      (rd t glbArrayLiveMapBad = 1 → bitOf (rd t (hdrEvt 0x00)) 14 = true) ∧ FieldsKept s t (liveFields ++ eventFields 0x00) ∧
      t = { s with cfg := t.cfg, sts := t.sts, trace := t.trace, cport := t.cport, regData := 0, regErr := 0 } := by
  let bad := mapBad (bitsOf v.toNat 0 24) (gradeOf v.toNat)
  let w := liveWritten v.toNat (granted s)
  let u₁ := setEvtIf (!(fieldLegal glbArrayLiveGrade (bitsOf v.toNat 24 4))) w (evBadValue 0x00)
  let u := setEvtIf bad u₁ evMapBad
  have hexec : exec (.arrayLiveWrite v) s = .next (settle s u) := (h.acts _).trans (by rw [writeArrayLive_first (s := granted s) hl])
  obtain ⟨hlive, hgrade, hlocked, hmap⟩ := rd_liveWritten v.toNat (granted s)
  have hev : FieldsKept w u (eventFields 0x00) :=
    (FieldsKept.setEvtIf _ w (evBadValue 0x00)).trans (FieldsKept.setEvtIf bad u₁ evMapBad)
  have hmap : rd u glbArrayLiveMapBad = 1 ↔ bad = true := by rw [hev _ (by decide)]; exact hmap
  refine ⟨settle s u, hexec, ?_, ?_, ?_, fun hg => ?_, ?_, fun hm => ?_, ?_, ?_⟩
  · rw [rd_settle, hev _ (by decide), hlive]
  · rw [rd_settle, hev _ (by decide), hlocked]
  · rw [rd_settle, hev _ (by decide), hgrade]
  · rw [rd_settle]
    refine EventsStay.setEvtIf bad u₁ evMapBad _ _ (by decide) (setEvtIf_sets (e := evBadValue 0x00) w ?_ (by decide))
    rw [Bool.not_eq_true', Bool.eq_false_iff, ne_eq, gradeLegal_iff]; omega
  · rw [rd_settle]; exact hmap
  · rw [rd_settle] at hm ⊢
    exact setEvtIf_sets (e := evMapBad) u₁ (hmap.mp hm) (by decide)
  · exact (((FieldsKept.liveWritten v.toNat (granted s)).mono (by simp)).trans (hev.mono (by simp))).settle (s := s)
  · exact h.settle_regs ((RegsOnly.liveWritten _ _).trans ((RegsOnly.setEvtIf _ w _).trans (.setEvtIf bad u₁ _)))

/-! ### GLB: RISK, ARM, DISARM (R334, R342) -/

/-- A write of RISK.LEVEL crosses THRESHOLD from below. -/
def Crosses (s : State) (new : Nat) : Prop := rd s glbRiskLevel < rd s glbSnapArmThreshold ∧ rd s glbSnapArmThreshold ≤ new

/-- The state with RISK.LEVEL written. -/
def riskSet (v : Word) (s : State) : State := wr (granted s) glbRiskLevel (bitsOf v.toNat 0 4)

theorem rd_riskSet (v : Word) (s : State) : rd (riskSet v s) glbRiskLevel = bitsOf v.toNat 0 4 := by
  rw [riskSet, rd_wr_self _ (.inl rfl)]
  exact Nat.mod_eq_of_lt (bitsOf_lt v.toNat 0 4)

theorem riskSet_kept (v : Word) (s : State) : FieldsKept s (riskSet v s) [glbRiskLevel] := FieldsKept.wr (granted s) _ _

theorem riskWrite_below {v : Word} {s : State} (h : ¬ Crosses s (bitsOf v.toNat 0 4)) : riskWrite v.toNat (granted s) = riskSet v s := by
  have h : ¬ Crosses (granted s) (bitsOf v.toNat 0 4) := h
  exact if_neg (by simpa [Crosses] using h)

theorem riskWrite_crosses {v : Word} {s : State} (h : Crosses s (bitsOf v.toNat 0 4)) : riskWrite v.toNat (granted s) =
    if s.snap.state == .armed then fireSnap (riskSet v s) else setEvt (riskSet v s) evRiskUnarmed := by
  have h : Crosses (granted s) (bitsOf v.toNat 0 4) := h
  exact if_pos (by simpa [Crosses] using h)

theorem riskLevelWrite_below (v : Word) {s : State} (h : Reaches s 0x00) (hc : ¬ Crosses s (bitsOf v.toNat 0 4)) :
    ∃ t, exec (.riskLevelWrite v) s = .next t ∧ rd t glbRiskLevel = bitsOf v.toNat 0 4 ∧ FieldsKept s t [glbRiskLevel] ∧
      t = { s with cfg := t.cfg, regData := 0, regErr := 0 } := by
  have hexec : exec (.riskLevelWrite v) s = .next (settle s (riskSet v s)) := (h.acts _).trans (by rw [riskWrite_below hc])
  obtain ⟨_, _, _, hw, hr⟩ := h
  rw [settle_dry ((riskSet_kept v s).irqRises (by decide)) rfl rfl hw hr] at hexec
  exact ⟨_, hexec, rd_riskSet v s, riskSet_kept v s, rfl⟩

theorem riskLevelWrite_unarmed (v : Word) {s : State} (h : Reaches s 0x00) (hc : Crosses s (bitsOf v.toNat 0 4))
    (ha : s.snap.state ≠ .armed) : ∃ t, exec (.riskLevelWrite v) s = .next t ∧ rd t glbRiskLevel = bitsOf v.toNat 0 4 ∧
      bitOf (rd t (hdrEvt 0x00)) 9 = true ∧ FieldsKept s t (glbRiskLevel :: eventFields 0x00) ∧ t = { s with
        cfg := t.cfg, sts := t.sts, trace := t.trace, cport := t.cport, regData := 0, regErr := 0 } := by
  have hexec : exec (.riskLevelWrite v) s = .next (settle s (setEvt (riskSet v s) evRiskUnarmed)) :=
    (h.acts _).trans (by rw [riskWrite_crosses hc, if_neg (by simpa using ha)])
  have hev := FieldsKept.setEvt (riskSet v s) evRiskUnarmed
  refine ⟨_, hexec, ?_, ?_, ?_, h.settle_regs ((RegsOnly.wr _ _ _).trans (.setEvt _ _))⟩
  · rw [rd_settle, hev _ (by decide), rd_riskSet]
  · rw [rd_settle]; exact setEvt_sets (e := evRiskUnarmed) _ (by decide)
  · exact (((riskSet_kept v s).mono (by simp)).trans (hev.mono (by simp [evRiskUnarmed]))).settle

/-- Firing the armed SNAP: it runs as a command of no queue, the instant is noted, and a record and RISK_FIRED follow. -/
theorem fireSnap_eq (s : State) : ∃ c a b, c.key = firedKey ∧ c.desc = s.snap.desc ∧ c.phase = .started ∧ fireSnap s = setEvt
    (trace (wr { s with snap := { s.snap with state := .running }, cmds := s.cmds ++ [c] } glbSnapTimeTime (now s))
      0 0x28 0xFF 0 0xFFFFFFFF a b) evRiskFired :=
  ⟨_, _, _, rfl, rfl, rfl, rfl⟩

theorem riskLevelWrite_armed (v : Word) {s : State} (h : Reaches s 0x00) (hc : Crosses s (bitsOf v.toNat 0 4))
    (ha : s.snap.state = .armed) : ∃ t x, exec (.riskLevelWrite v) s = .next t ∧ rd t glbRiskLevel = bitsOf v.toNat 0 4 ∧
      bitOf (rd t (hdrEvt 0x00)) 8 = true ∧ rd t glbSnapTimeTime = now s % 2 ^ 64 ∧ t.snap = { s.snap with state := .running } ∧
      t.cmds = s.cmds ++ [x] ∧ x.key = firedKey ∧ x.desc = s.snap.desc ∧ x.phase = .started ∧
      FieldsKept s t ([glbRiskLevel, glbSnapTimeTime] ++ eventFields 0x00) ∧ t = { s with
        cfg := t.cfg, sts := t.sts, snap := t.snap, cmds := t.cmds, trace := t.trace, cport := t.cport, regData := 0, regErr := 0 } := by
  obtain ⟨x, a, b, hkey, hdesc, hphase, hfire⟩ := fireSnap_eq (riskSet v s)
  let started : State := { granted s with snap := { s.snap with state := .running }, cmds := s.cmds ++ [x] }
  let w₀ : State := { riskSet v s with snap := { s.snap with state := .running }, cmds := s.cmds ++ [x] }
  let w := wr w₀ glbSnapTimeTime (now s)
  let y := trace w 0 0x28 0xFF 0 0xFFFFFFFF a b
  have hexec : exec (.riskLevelWrite v) s = .next (settle s (setEvt y evRiskFired)) :=
    (h.acts _).trans (by rw [riskWrite_crosses hc, if_pos (by simp [ha]), hfire]; rfl)
  have hw : FieldsKept s w [glbRiskLevel, glbSnapTimeTime] :=
    FieldsKept.trans (t := w₀) (((riskSet_kept v s).congr rfl rfl).mono (by simp)) ((FieldsKept.wr _ _ _).mono (by simp))
  have hev : FieldsKept w (setEvt y evRiskFired) (eventFields 0x00) :=
    ((FieldsKept.trace w 0 0x28 0xFF 0 0xFFFFFFFF a b).mono (by simp [eventFields])).trans (.setEvt y evRiskFired)
  have hregs : RegsOnly started (setEvt y evRiskFired) :=
    (RegsOnly.trans (show RegsOnly started w₀ from rfl) (.wr w₀ _ _)).trans ((RegsOnly.trace w _ _ _ _ _ _ _).trans (.setEvt y _))
  obtain ⟨_, _, _, hwb, hrb⟩ := h
  have hframe := settle_regs hregs (s := s) rfl rfl hwb hrb
  have hsnap : (settle s (setEvt y evRiskFired)).snap = { s.snap with state := .running } := congrArg State.snap hframe
  have hcmds : (settle s (setEvt y evRiskFired)).cmds = s.cmds ++ [x] := congrArg State.cmds hframe
  refine ⟨_, x, hexec, ?_, ?_, ?_, hsnap, hcmds, hkey, hdesc, hphase, ?_, hframe.trans (by rw [hsnap, hcmds]; rfl)⟩
  · rw [rd_settle, hev _ (by decide)]
    exact (rd_wr_ne w₀ _ (by decide)).trans (rd_riskSet v s)
  · rw [rd_settle]; exact setEvt_sets (e := evRiskFired) y (by decide)
  · rw [rd_settle, hev _ (by decide)]
    exact rd_wr_self _ (.inr (.inr (.inl rfl)))
  · exact ((hw.mono (by simp)).trans (hev.mono (by simp))).settle

theorem arm_idle {s : State} (h : Reaches s 0x00) (hi : s.snap.state = .idle) :
    ∃ t, exec .arm s = .next t ∧ t.snap = { s.snap with state := .arming } ∧
      t.mreqs = (if unitsRun s then (issue s true false (rd s glbSnapDescAddr) 128 .snapDesc).mreqs else s.mreqs) ∧
      t = { s with snap := t.snap, mreqs := t.mreqs, mwait := t.mwait, regData := 0, regErr := 0 } := by
  let x : State := { granted s with snap := { s.snap with state := .arming } }
  have harm : armNow (granted s) = askSnapDesc x := if_pos (by simp [granted, hi])
  have hask : askSnapDesc x = if unitsRun s then issue x true false (rd s glbSnapDescAddr) 128 .snapDesc else x := rfl
  have hexec : exec .arm s = .next (settle s (askSnapDesc x)) := (h.acts _).trans (by rw [harm])
  obtain ⟨_, _, _, hw, hr⟩ := h
  cases hu : unitsRun s <;> rw [hask, hu] at hexec
  · rw [if_neg Bool.false_ne_true, settle_still (s := s) (t := x) rfl rfl rfl rfl hw hr] at hexec
    exact ⟨x, hexec, rfl, rfl, rfl⟩
  · let t := issue x true false (rd s glbSnapDescAddr) 128 .snapDesc
    rw [if_pos rfl, settle_still (s := s) (t := t) rfl rfl rfl rfl hw hr] at hexec
    exact ⟨t, hexec, rfl, rfl, rfl⟩

theorem arm_other {s : State} (h : Reaches s 0x00) (hi : s.snap.state ≠ .idle) : exec .arm s = .next (granted s) := by
  have harm : armNow (granted s) = granted s := if_neg (by simpa [granted] using hi)
  exact (h.acts _).trans (by rw [harm, h.settle_granted])

theorem disarm_armed {s : State} (h : Reaches s 0x00) (ha : s.snap.state = .armed) :
    ∃ t, exec .disarm s = .next t ∧ t.snap = snapReset ∧ rd t glbSnapArmOverridden = 0 ∧ FieldsKept s t [glbSnapArmOverridden] ∧
      t = { s with snap := t.snap, sts := t.sts, regData := 0, regErr := 0 } := by
  let x : State := { granted s with snap := snapReset }
  have hdis : disarmNow (granted s) = wr x glbSnapArmOverridden 0 := if_pos (by simp [granted, ha])
  have hkept : FieldsKept s (wr x glbSnapArmOverridden 0) [glbSnapArmOverridden] := FieldsKept.wr x _ _
  have hexec : exec .disarm s = .next (settle s (wr x glbSnapArmOverridden 0)) := (h.acts _).trans (by rw [hdis])
  obtain ⟨_, _, _, hw, hr⟩ := h
  rw [settle_dry (hkept.irqRises (by decide)) rfl rfl hw hr] at hexec
  exact ⟨_, hexec, rfl, rd_wr_self 0 (.inr (.inr (.inl rfl))), hkept, rfl⟩

theorem disarm_other {s : State} (h : Reaches s 0x00) (ha : s.snap.state ≠ .armed) : exec .disarm s = .next (granted s) := by
  have hdis : disarmNow (granted s) = granted s := if_neg (by simpa [granted] using ha)
  exact (h.acts _).trans (by rw [hdis, h.settle_granted])

/-- Settles O51, one lemma for each clause: ARRAY_LIVE locked or not, RISK.LEVEL by THRESHOLD and the state of the armed SNAP, ARM and
DISARM by that state. -/
theorem glbWritesAct : Obligations.GlbWritesAct := by
  unfold Obligations.GlbWritesAct
  intro s h
  refine ⟨fun v => ⟨arrayLiveWrite_locked v h, fun hl => ?_⟩,
    fun v => ⟨riskLevelWrite_below v h, riskLevelWrite_unarmed v h, riskLevelWrite_armed v h⟩,
    arm_idle h, fun hi => ⟨_, arm_other h hi, rfl⟩, disarm_armed h, fun ha => ⟨_, disarm_other h ha, rfl⟩⟩
  obtain ⟨t, hexec, hlive, hlocked, hgrade, hbv, hmap, hev, hkept, hframe⟩ := arrayLiveWrite_first v h hl
  exact ⟨t, hexec, hlive, hlocked, hgrade, hbv, hmap.trans (mapBad_iff _ _), hev, hkept, hframe⟩

end Sys2Proof.Machine
end

section
/-! SUPPORT. O47: what a step has stored is in memory at its end (log 54), and what it asks the M-ports for is outstanding or waits. -/

namespace Sys2Proof.Machine

/-! ### Bytes stored in a step -/

theorem bytes_store {s : State} {a : Nat} {l : List Byte} {k m : Nat} (h : k + m ≤ l.length) :
    (s.store a l).bytes (a + k) m = (l.drop k).take m := by
  apply List.ext_getElem
  · simp [State.bytes]; omega
  · intro i hi _
    have hi : i < m := by simpa [State.bytes] using hi
    simp only [State.bytes, List.getElem_map, List.getElem_range, List.getElem_take, List.getElem_drop]
    rw [Nat.add_assoc]
    exact byte_store s a l (k + i) (by omega)

/-- At the end of a step memory holds what the step has stored. -/
theorem byte_settle_store {s u : State} {a : Nat} {l : List Byte} (hr : s.rbuf = []) (hm : u.mem = s.mem)
    (hw : u.wbuf = (s.store a l).wbuf) (hu : u.rbuf = []) (c : Nat) : (settle s u).byte c = (s.store a l).byte c := by
  rw [byte_settle_in hm hu]
  exact byte_congr (hm.trans (store_mem ..).symm) hw (by rw [hu, store_rbuf, hr]) c

theorem bytes_settle_store {s u : State} {a : Nat} {l : List Byte} (hr : s.rbuf = []) (hm : u.mem = s.mem)
    (hw : u.wbuf = (s.store a l).wbuf) (hu : u.rbuf = []) {k m : Nat} (h : k + m ≤ l.length) :
    (settle s u).bytes (a + k) m = (l.drop k).take m := by
  rw [← bytes_store (s := s) (a := a) h, State.bytes, State.bytes]
  simp only [byte_settle_store hr hm hw hu]

theorem byte_settle_outside {s u : State} {a : Nat} {l : List Byte} (hr : s.rbuf = []) (hm : u.mem = s.mem)
    (hw : u.wbuf = (s.store a l).wbuf) (hu : u.rbuf = []) {c : Nat} (h : c < a ∨ a + l.length ≤ c) :
    (settle s u).byte c = s.byte c := by
  rw [byte_settle_store hr hm hw hu, byte_store_other s a l h]

/-- A step that writes fields outside the event registers, and stores bytes, changes memory beside them and nothing else. -/
theorem settle_store_frame {s w : State} {fs : List Field} (hk : FieldsKept s w fs) (hf : ∀ f ∈ fs, noEvent f = true)
    (hp : w.pending = s.pending) (hw : w.wbuf = []) (hr : w.rbuf = []) (a : Nat) (l : List Byte) :
    settle s (w.store a l) = { w with mem := (settle s (w.store a l)).mem } := by
  have hi : irqRises s (w.store a l) = w.store a l := (hk.congr (store_cfg ..) (store_sts ..)).irqRises hf
  rw [settle_silent hi (by rw [store_pending, hp]) (by rw [store_rbuf, hr]), store_only, ← hw]

/-! ### Requests asked for (R193, R385, R386) -/

/-- A request of the kind and purpose given is outstanding or waits for a credit. -/
def Asked (s : State) (write : Bool) (why : MPurpose) : Prop := ∃ m ∈ openReqs s, m.write = write ∧ m.why = why

/-- A purpose that no end of a command makes stale. -/
def lasting : MPurpose → Bool
  | .cmdRead _ _ _ => false
  | _ => true

theorem staleRead_lasting {s : State} {r : MReq} (h : lasting r.why = true) : staleRead s r = false := by
  unfold staleRead
  split
  · next e => rw [e] at h; cases h
  · rfl

theorem openReqs_goOut (s : State) (r : MReq) : openReqs s ⊆ openReqs (goOut s r) := by
  unfold goOut
  split
  · exact List.Subset.refl _
  · split
    · exact List.append_subset.mpr ⟨fun _ h => List.mem_append_left _ (List.mem_append_left _ h), List.subset_append_right _ _⟩
    · exact List.append_subset.mpr ⟨List.subset_append_left _ _, fun _ h => List.mem_append_right _ (List.mem_append_left _ h)⟩

theorem Asked.goOut {s : State} {w : Bool} {y : MPurpose} (h : Asked s w y) (r : MReq) : Asked (goOut s r) w y := by
  obtain ⟨m, hm, hmy⟩ := h
  exact ⟨m, openReqs_goOut s r hm, hmy⟩

theorem asked_goOut_self (s : State) {r : MReq} (h : lasting r.why = true) : Asked (goOut s r) r.write r.why := by
  unfold goOut
  rw [staleRead_lasting h, if_neg Bool.false_ne_true]
  split
  · exact ⟨{ r with tag := freeTag s r.port }, by simp [openReqs], rfl, rfl⟩
  · exact ⟨r, by simp [openReqs], rfl, rfl⟩

theorem Asked.foldl_goOut {s : State} {w : Bool} {y : MPurpose} (h : Asked s w y) (l : List MReq) : Asked (l.foldl Machine.goOut s) w y := by
  induction l generalizing s with
  | nil => exact h
  | cons r l ih => exact ih (h.goOut r)

theorem asked_foldl_goOut {l : List MReq} {r : MReq} (s : State) (hr : r ∈ l) (h : lasting r.why = true) :
    Asked (l.foldl goOut s) r.write r.why := by
  induction l generalizing s with
  | nil => cases hr
  | cons q l ih =>
    rcases List.mem_cons.mp hr with rfl | hr
    · exact (asked_goOut_self s h).foldl_goOut l
    · exact ih _ hr

/-- What every step of a fold brings about holds after a fold over a list with an element. -/
theorem foldl_brings {α β : Type} (P : β → Prop) {f : β → α → β} (h : ∀ b a, P (f b a)) {l : List α} (hl : l ≠ []) (b : β) :
    P (l.foldl f b) := by
  induction l generalizing b with
  | nil => exact absurd rfl hl
  | cons a l ih =>
    rw [List.foldl_cons]
    cases l with
    | nil => exact h b a
    | cons a' l => exact ih (List.cons_ne_nil _ _) _

theorem tput_ne_nil {α : Type} [DecidableEq α] {d v : α} {l : List (Nat × α)} {k : Nat} (h : v ≠ d) : tput d l k v ≠ [] := by
  rw [tput, if_neg h]
  cases l with
  | nil => exact List.cons_ne_nil _ _
  | cons p l =>
    rw [tins]
    split
    · exact List.cons_ne_nil _ _
    · split <;> exact List.cons_ne_nil _ _

theorem granuleRuns_ne_nil {rs : List (Nat × Nat)} (h : rs ≠ []) : granuleRuns rs ≠ [] :=
  foldl_brings (· ≠ []) (fun _ _ => tput_ne_nil (by simp)) h []

theorem writtenRuns_ne_nil {w : List Host.Cell} (h : w ≠ []) : writtenRuns w ≠ [] := by
  refine foldl_brings (· ≠ []) (fun rs p => ?_) h []
  split
  · split
    · exact List.cons_ne_nil _ _
    · split <;> exact List.cons_ne_nil _ _
  · exact List.cons_ne_nil _ _

theorem store_wbuf_ne_nil (s : State) (a : Nat) {l : List Byte} (h : l ≠ []) : (s.store a l).wbuf ≠ [] := by
  have hz : l.zip (List.range l.length) ≠ [] := by
    intro e
    have := congrArg List.length e
    simp [h] at this
  exact foldl_brings (fun t : State => t.wbuf ≠ []) (fun _ _ => List.cons_ne_nil _ _) hz s

/-- Runs that are asked for are outstanding or wait. -/
theorem asked_askRuns (s : State) (w : Bool) {rs : List (Nat × Nat)} {y : MPurpose} (hrs : rs ≠ []) (hy : lasting y = true) :
    Asked (askRuns s w rs y) w y := by
  rw [askRuns, if_neg (by simpa using hrs), pump]
  obtain ⟨r, hr, rfl, rfl⟩ := foldl_brings (fun t : State => ∃ r ∈ t.mwait, r.write = w ∧ r.why = y)
    (f := fun s g => ask s w (g.2.foldl (fun a r => min a r.1) (1024 * g.1 + 1023))
      (g.2.foldl (fun n r => max n (r.1 + r.2)) 0 - g.2.foldl (fun a r => min a r.1) (1024 * g.1 + 1023)) g.2 y)
    (fun _ _ => ⟨_, List.mem_append_right _ List.mem_cons_self, rfl, rfl⟩) (granuleRuns_ne_nil hrs) s
  exact asked_foldl_goOut _ hr hy

theorem Asked.settle {t : State} {w : Bool} {y : MPurpose} (h : Asked t w y) (s : State) : Asked (settle s t) w y := by
  unfold Asked openReqs at *
  rwa [settle_mreqs, settle_mwait]

/-- A step that stores bytes and asks for requests changes memory and the requests, and nothing else. -/
theorem settle_requests {s u : State} {b : List Host.Cell} {r q : List MReq} (h : u = { s with wbuf := b, mreqs := r, mwait := q })
    (hw : s.wbuf = []) (hr : s.rbuf = []) :
    settle s u = { s with mem := (settle s u).mem, mreqs := (settle s u).mreqs, mwait := (settle s u).mwait } := by
  have hset : settle s u = { u with mem := memDrain s.mem u.wbuf, wbuf := [] } :=
    settle_silent (irqRises_still (by rw [h]) (by rw [h])) (by rw [h]) (by rw [h]; exact hr)
  rw [hset, h, ← hw]

/-! ### Hand-off records (R214, R215) -/

theorem FieldsKept.statusKept {s t : State} {l : List Field} {pages : List Nat} (h : FieldsKept s t l)
    (hl : ∀ f ∈ l, f.page ∈ pages ∧ f.off < 4096 ∧ f.lo < 64) : StatusKept s t pages := by
  intro f _ ho hlo hp
  refine h f fun hm => ?_
  obtain ⟨g, hg, hk⟩ := List.mem_map.mp hm
  obtain ⟨hgp, hgo, hgl⟩ := hl g hg
  have : f.page = g.page := by simp only [fieldKey] at hk; omega
  exact hp (this ▸ hgp)

theorem hringRoom_iff (s : State) : hringRoom s = true ↔
    (rd s sivHringHeadIndex + 2 ^ 32 - rd s sivHringTailIndex) % 2 ^ 32 < 2 ^ rd s sivHringCtlSizeLog2 := by
  simp [hringRoom]

theorem handoffRecord_length (s : State) (h : HandOff) : (handoffRecord s h).length = h.bytes.length + 16 := by
  simp [handoffRecord]

section
variable {s : State} {h : HandOff} {rest : List HandOff} (hh : s.handoffs = h :: rest)
include hh

theorem handoffRecord_waits (hw : handoffWaits s = true) : exec .handoffRecord s = .next s := by
  change execHandoffRecord s = _
  simp [execHandoffRecord, hh, hw]

theorem handoffRecord_full (hu : unitsRun s = true) (hwb : s.wbuf = []) (hrb : s.rbuf = []) (hw : handoffWaits s = false)
    (hfull : hringRoom s = false) : ∃ t, exec .handoffRecord s = .next t ∧ bitOf (rd t (hdrEvt 0x0A)) 9 = true ∧
      StatusKept s t [0x04, 0x0A] ∧ t = { s with sts := t.sts, trace := t.trace, cport := t.cport } := by
  have hexec : exec .handoffRecord s = .next (settle s (setEvt s evHoffFull)) := by
    change execHandoffRecord s = _
    simp [execHandoffRecord, hh, hu, hw, hfull]
  refine ⟨_, hexec, ?_, ?_, settle_stsTrace (.setEvt s _) rfl rfl hwb hrb⟩
  · rw [rd_settle]; exact setEvt_sets (e := evHoffFull) s (by decide)
  · exact (FieldsKept.setEvt s evHoffFull).settle.statusKept (by decide)

theorem handoffRecord_written (hu : unitsRun s = true) (hwb : s.wbuf = []) (hrb : s.rbuf = []) (hw : handoffWaits s = false)
    (hroom : hringRoom s = true) : ∃ t, exec .handoffRecord s = .next t ∧ Asked t true (.handoff h.key) ∧
      t.bytes (handoffAddr s) h.bytes.length = h.bytes ∧ t.num (handoffAddr s + h.bytes.length) 8 = now s % 2 ^ 64 ∧
      t.num (handoffAddr s + h.bytes.length + 8) 4 = rd s sivHringHeadIndex % 2 ^ 32 ∧
      (∀ a, a < handoffAddr s ∨ handoffAddr s + h.bytes.length + 16 ≤ a → t.byte a = s.byte a) ∧
      t = { s with mem := t.mem, mreqs := t.mreqs, mwait := t.mwait } := by
  let l := handoffRecord s h
  let w := s.store (handoffAddr s) l
  let u := askRuns w true (writtenRuns w.wbuf) (.handoff h.key)
  have hexec : exec .handoffRecord s = .next (settle s u) := by
    change execHandoffRecord s = _
    simp [execHandoffRecord, hh, hu, hw, hroom, u, w, l]
  have hlen : l.length = h.bytes.length + 16 := handoffRecord_length s h
  have honly : u = { s with wbuf := w.wbuf, mreqs := u.mreqs, mwait := u.mwait } :=
    (askRuns_only w true _ _).trans (congrArg (fun x : State => { x with mreqs := u.mreqs, mwait := u.mwait }) (store_only s _ l))
  have hmem : u.mem = s.mem := by rw [honly]
  have hrbuf : u.rbuf = [] := by rw [honly]; exact hrb
  have hwbuf : u.wbuf = w.wbuf := by rw [honly]
  have hasked : Asked u true (.handoff h.key) :=
    asked_askRuns w true (writtenRuns_ne_nil (store_wbuf_ne_nil s _ (List.ne_nil_of_length_pos (by omega)))) rfl
  have hl : l = h.bytes ++ (natLE (now s) 8 ++ (natLE (rd s sivHringHeadIndex) 4 ++ natLE 0 4)) := by
    simp only [l, handoffRecord, List.append_assoc]
  have hbytes : (settle s u).bytes (handoffAddr s + 0) h.bytes.length = h.bytes := by
    rw [bytes_settle_store hrb hmem hwbuf hrbuf (by omega), hl, List.drop_zero, List.take_left]
  have htime : (settle s u).bytes (handoffAddr s + h.bytes.length) 8 = natLE (now s) 8 := by
    rw [bytes_settle_store hrb hmem hwbuf hrbuf (by omega), hl, List.drop_left, List.take_left' (natLE_length ..)]
  have hseq : (settle s u).bytes (handoffAddr s + (h.bytes.length + 8)) 4 = natLE (rd s sivHringHeadIndex) 4 := by
    rw [bytes_settle_store hrb hmem hwbuf hrbuf (by omega), hl, ← List.drop_drop, List.drop_left, List.drop_left' (natLE_length ..),
      List.take_left' (natLE_length ..)]
  refine ⟨settle s u, hexec, hasked.settle s, hbytes, ?_, ?_, fun a ha => ?_, settle_requests honly hwb hrb⟩
  · rw [State.num, htime, leNat_natLE]
  · rw [State.num, Nat.add_assoc, hseq, leNat_natLE]
  · exact byte_settle_outside hrb hmem hwbuf hrbuf (by omega)
end

/-! ### Trace records and interrupt messages (R396, R398, R433, R435, R436) -/

theorem traceRecordWrite_acts {s : State} {b : List Byte} {rest : List (List Byte)} (hwb : s.wbuf = []) (hrb : s.rbuf = [])
    (ha : awake s = true) (hc : portClock s = true) (ht : s.trace = b :: rest) :
    ∃ t, exec .traceRecordWrite s = .next t ∧ t.trace = rest ∧ t.bytes (traceEntry s) b.length = b ∧
      (∀ a, a < traceEntry s ∨ traceEntry s + b.length ≤ a → t.byte a = s.byte a) ∧
      rd t trcHeadCount = (rd s trcHeadCount + 1) % 2 ^ 32 ∧ FieldsKept s t [trcHeadCount] ∧
      t = { s with trace := t.trace, mem := t.mem, sts := t.sts } := by
  let x : State := { s with trace := rest }
  let w := wr x trcHeadCount (rd s trcHeadCount + 1)
  let u := w.store (traceEntry s) b
  have hexec : exec .traceRecordWrite s = .next (settle s u) := by
    change execTraceRecordWrite s = _
    simp [execTraceRecordWrite, ht, ha, hc, u, w, x]
  have hkept : FieldsKept s w [trcHeadCount] := FieldsKept.wr x _ _
  have hframe := settle_store_frame hkept (by decide) rfl hwb hrb (traceEntry s) b
  have hmem : u.mem = s.mem := store_mem ..
  have hrbuf : u.rbuf = [] := (store_rbuf ..).trans hrb
  have hwbuf : u.wbuf = (s.store (traceEntry s) b).wbuf := store_wbuf_congr (s := s) (t := w) rfl _ _
  refine ⟨settle s u, hexec, ?_, ?_, fun a ha => byte_settle_outside hrb hmem hwbuf hrbuf ha, ?_, ?_, ?_⟩
  · rw [hframe]; rfl
  · have hb := bytes_settle_store hrb hmem hwbuf hrbuf (k := 0) (m := b.length) (by omega)
    simpa using hb
  · rw [rd_settle, rd_congr (s := w) _ (store_cfg ..) (store_sts ..), rd_wr_self _ (.inr (.inr (.inl rfl)))]
    rfl
  · exact (hkept.congr (store_cfg ..) (store_sts ..)).settle
  · rw [hframe]; rfl

theorem interruptMessage_acts {s : State} {m : CWrite} {rest : List CWrite} (hwb : s.wbuf = []) (hrb : s.rbuf = [])
    (ha : awake s = true) (hc : portClock s = true) (hm : s.cport = m :: rest) :
    ∃ t, exec .interruptMessage s = .next t ∧ t.cport = rest ∧ t.num m.addr 8 = m.word % 2 ^ 64 ∧
      (∀ a, a < m.addr ∨ m.addr + 8 ≤ a → t.byte a = s.byte a) ∧
      rd t glbIrqStatMsgs = satAdd glbIrqStatMsgs.width (rd s glbIrqStatMsgs) 1 ∧ FieldsKept s t [glbIrqStatMsgs] ∧
      t = { s with cport := t.cport, mem := t.mem, sts := t.sts } := by
  let x : State := { s with cport := rest }
  let w := bump x glbIrqStatMsgs 1
  let l := natLE m.word 8
  let u := w.store m.addr l
  have hexec : exec .interruptMessage s = .next (settle s u) := by
    change execInterruptMessage s = _
    simp [execInterruptMessage, hm, ha, hc, u, w, l, x]
  have hlen : l.length = 8 := natLE_length ..
  have hkept : FieldsKept s w [glbIrqStatMsgs] := FieldsKept.bump x _ _
  have hframe := settle_store_frame hkept (by decide) rfl hwb hrb m.addr l
  have hmem : u.mem = s.mem := store_mem ..
  have hrbuf : u.rbuf = [] := (store_rbuf ..).trans hrb
  have hwbuf : u.wbuf = (s.store m.addr l).wbuf := store_wbuf_congr (s := s) (t := w) rfl _ _
  refine ⟨settle s u, hexec, ?_, ?_, fun a ha => byte_settle_outside hrb hmem hwbuf hrbuf (by omega), ?_, ?_, ?_⟩
  · rw [hframe]; rfl
  · have hb := bytes_settle_store hrb hmem hwbuf hrbuf (k := 0) (m := 8) (by omega)
    rw [State.num, ← Nat.add_zero m.addr, hb, List.drop_zero, List.take_of_length_le (by omega), leNat_natLE]
  · rw [rd_settle, rd_congr (s := w) _ (store_cfg ..) (store_sts ..), rd_bump_self _ (.inr (.inr (.inl rfl))),
      Nat.mod_eq_of_lt (satAdd_lt _ _ _)]
    rfl
  · exact (hkept.congr (store_cfg ..) (store_sts ..)).settle
  · rw [hframe]; rfl

/-- Settles O47: a hand-off record waits, is written or finds the ring full; the oldest trace record and the oldest message go to memory. -/
theorem recordsAndMessagesLeaveInOrder : Obligations.RecordsAndMessagesLeaveInOrder := by
  unfold Obligations.RecordsAndMessagesLeaveInOrder
  refine ⟨fun s h rest hu hwb hrb hh => ⟨handoffRecord_waits hh, fun hw hroom => ?_, fun hw hfull => ?_⟩,
    fun s hwb hrb ha hc => ⟨fun b rest ht => traceRecordWrite_acts hwb hrb ha hc ht,
      fun m rest hm => interruptMessage_acts hwb hrb ha hc hm⟩⟩
  · exact handoffRecord_written hh hu hwb hrb hw ((hringRoom_iff s).mpr hroom)
  · refine handoffRecord_full hh hu hwb hrb hw (Bool.eq_false_iff.mpr fun hroom => ?_)
    exact absurd ((hringRoom_iff s).mp hroom) (Nat.not_lt.mpr hfull)

end Sys2Proof.Machine
end

section
/-! SUPPORT. O3: every row of the table settles. A row is one of the shared runners, or branches of which each ends in the state itself or
in a settled one. -/

namespace Sys2Proof.Machine

/-! ### Branches of a meaning -/

theorem Settles.ite {s : State} {p : Prop} {_ : Decidable p} {a b : Host.Outcome State Fault Refusal} (ha : Settles s a)
    (hb : Settles s b) : Settles s (if p then a else b) := by
  split
  · exact ha
  · exact hb

/-- An event acts where its condition holds, and else changes nothing (log 4). -/
theorem Settles.guarded (s u : State) (p : Prop) {_ : Decidable p} : Settles s (if p then .next (settle s u) else .next s) :=
  .ite (.by s u) (.same s)

/-- A row on a command changes nothing where the command is not found. -/
theorem Settles.onFound {s : State} (k : Nat) {g : Cmd → Host.Outcome State Fault Refusal} (h : ∀ c, Settles s (g c)) :
    Settles s (match findCmd s k with | some c => g c | none => .next s) := by
  split
  · exact h _
  · exact .same s

/-- What settles from a settled state settles. -/
theorem Settles.after {s u : State} {o : Host.Outcome State Fault Refusal} (h : Settles (settle s u) o) : Settles s o := by
  obtain ⟨t, ht, hinv, hp⟩ := h
  exact ⟨t, ht, fun hi => hinv (settle_inv u hi), hp⟩

/-! ### Rows with a case split of their own -/

theorem Settles.preempt (r : CmdRef) (s : State) : Settles s (execPreempt r s) := by
  unfold execPreempt
  split
  · exact .same s
  · exact .after (.answer ..)

theorem Settles.sieve (r : CmdRef) (s : State) : Settles s (execSieve r s) := by
  refine .onFound (refKey r) fun c => .ite ?_ (.same s)
  split
  · exact .guarded ..
  · exact .ite (.by ..) (.by ..)

theorem Settles.packetSend (port : BitVec 2) (s : State) : Settles s (execPacketSend port s) := by
  unfold execPacketSend
  dsimp only
  split
  · exact .same s
  · exact .guarded ..

theorem Settles.handoffRecord (s : State) : Settles s (execHandoffRecord s) := by
  unfold execHandoffRecord
  split
  · exact .same s
  · exact .ite (.ite (.by ..) (.by ..)) (.same s)

theorem Settles.commandStart (q : BitVec 4) (s : State) : Settles s (execCommandStart q s) := by
  unfold execCommandStart
  dsimp only
  split
  · exact .same s
  · exact .ite (.same s) <| .ite (.by ..) <| .ite (.by ..) <| .ite (.same s) <| .ite (.by ..) <| .ite (.same s) <| .ite (.by ..) (.by ..)

theorem Settles.recv (mode : Nat) (r : CmdRef) (s : State) : Settles s (runRecv mode r s) :=
  .onFound (refKey r) fun _ => .ite (.same s) <| .ite (.by ..) (.guarded ..)

theorem Settles.epochFlip (r : CmdRef) (s : State) : Settles s (execEpochFlip r s) :=
  .onFound (refKey r) fun _ => .ite (.ite (.by ..) <| .ite (.by ..) <| .ite (.same s) (.by ..)) (.same s)

theorem Settles.tileEvict (s : State) : Settles s (execTileEvict s) := by
  refine .ite ?_ (.same s)
  split
  · exact .by ..
  · exact .same s

theorem Settles.mportResponse (port : BitVec 4) (tag : BitVec 10) (st : MStatus) (poison : BitVec 16) (data : List Byte) (s : State) :
    Settles s (execMportResponse port tag st poison data s) := by
  refine .ite ?_ (.same s)
  split
  · exact .by ..
  · exact .by ..

theorem Settles.fportStatus (port : BitVec 2) (pid : BitVec 12) (error : Bool) (s : State) :
    Settles s (execFportStatus port pid error s) := by
  refine .ite ?_ (.same s)
  split
  · exact .by ..
  · exact .by ..

theorem Settles.interruptMessage (s : State) : Settles s (execInterruptMessage s) := by
  unfold execInterruptMessage
  split
  · exact .same s
  · exact .guarded ..

theorem Settles.traceRecordWrite (s : State) : Settles s (execTraceRecordWrite s) := by
  unfold execTraceRecordWrite
  split
  · exact .same s
  · exact .guarded ..

theorem Settles.correctionWriteBack (s : State) : Settles s (execCorrectionWriteBack s) := by
  unfold execCorrectionWriteBack
  split
  · exact .guarded ..
  · exact .same s

theorem Settles.keepMajorityRepair (s : State) : Settles s (execKeepMajorityRepair s) := by
  unfold execKeepMajorityRepair
  split
  · exact .same s
  · exact .by ..

/-! ### Every row, and the step -/

/-- No row of the table stops the block: every instruction answers with a next state that keeps the invariant and the waiting commands. -/
theorem exec_settles (i : Instr) (s : State) : Settles s (exec i s) := by
  cases i with
  | nop | loadw | gclearOpen | gclearClear | gclearClose | divert | preload | compress | sendParams | applyCopy | commit | restore
  | epochOnlyRestore | fence | stamp | bump | cancel | quarantine | release | ledgerClear | ledgerDump | ledgerLoad | bistLogic
  | bistMemory | bistLogicThenMemory | fold | gsaveGroup | flush | grestoreGroup | sendContrib | sendChain | apply => exact .unit ..
  | plain | dx | dw | pair => exact .product ..
  | gather | scatterStore | scatterAccum | scatterAccumGroup | scaWindow => exact .sca ..
  | recvReduced | recvParams | recvChainAdd | recvChainSet => exact .recv ..
  | commandResume | planeSaveComplete | planeLoadComplete | slotLoad | rowGroupIssue | patchRowGroup | carryRelay | hodDelivery | starve
  | trowelFetch | trowelStore | foldBegin | foldEnd | sieveDecision => exact .answer ..
  | doorbell | queueEnable | queueDisable | resume | setptr | lcacheInv | powerTarget | regWrite | ctlClr | clrUe | evtClear
  | arrayLiveWrite | riskLevelWrite | arm | disarm | traceMark | trcRingWrite | advDataRead | advDataWrite | statDataRead
  | logData3Read =>
    dsimp only [exec]
    exact .port ..
  | wsBypass | wsExtest | wsIntest | wsPreload | wsClamp | wsScan | wpScan | wsIjtag | bistControllerStart | bistControllerDone
  | wrstn =>
    dsimp only [exec]
    exact .test ..
  | abandon r | abandonDone r | fenceTargetsReached r | stampWrite r | ledgerView r | recvWait r | bistEnd r =>
    exact .onFound (refKey r) fun _ => .guarded ..
  | snap r | completionRecord r => exact .onFound (doneKey r) fun _ => .guarded ..
  | descriptorFetch | fillerBridgeExpiry | tileFetch | fportReceive | advisorEvaluation | clockRequest | wakeDone | retentionEntryDone
  | clkSlow | governorTick | throttleChange | scrubAccess | tbStep | arrayFailure => exact .guarded ..
  | budgetChange | tbValidChange | powerLoss => exact .by ..
  | sleepQuiescenceEnd => exact .ite (.ite (.by ..) (.by ..)) (.same s)
  | pclkAckRise | pclkAckFall => exact .ite (.by ..) <| .ite (.same s) (.by ..)
  | bucketLeak => exact .ite (.same s) (.by ..)
  | memoryError => exact .ite (.same s) <| .ite (.by ..) (.by ..)
  | rstN => exact .ite (.ite (.same s) (.by ..)) (.guarded ..)
  | wrstN => exact .ite (.same s) <| .ite (.ite (.same s) (.by ..)) (.guarded ..)
  | preempt r => exact .preempt r s
  | sieve r => exact .sieve r s
  | packetSend port => exact .packetSend port s
  | handoffRecord => exact .handoffRecord s
  | commandStart q => exact .commandStart q s
  | epochFlip r => exact .epochFlip r s
  | tileEvict => exact .tileEvict s
  | mportResponse => exact .mportResponse ..
  | fportStatus => exact .fportStatus ..
  | interruptMessage => exact .interruptMessage s
  | traceRecordWrite => exact .traceRecordWrite s
  | correctionWriteBack => exact .correctionWriteBack s
  | keepMajorityRepair => exact .keepMajorityRepair s

theorem step_nil {s : State} (h : s.pending = []) : step s = .next s := by
  rw [step, h]

theorem step_cons {s : State} {i : Instr} {rest : List Instr} (h : s.pending = i :: rest) :
    step s = exec i { s with pending := rest } := by
  rw [step, h]

/-- Settles O3: the front command settles from the state with the queue's rest, whose memory and buffers are those of the state before. -/
theorem everyStepKeepsTheInvariant : Obligations.EveryStepKeepsTheInvariant := by
  unfold Obligations.EveryStepKeepsTheInvariant
  intro s hinv
  cases h : s.pending with
  | nil => exact ⟨s, step_nil h, hinv, h⟩
  | cons i rest =>
    obtain ⟨t, ht, hkeep, hp⟩ := exec_settles i { s with pending := rest }
    exact ⟨t, (step_cons h).trans ht, hkeep hinv, hp⟩

end Sys2Proof.Machine
end

section
/-! SUPPORT. O48: what the register port answers where an access has no effect (R24, R382, R383, R423). -/

namespace Sys2Proof.Machine

/-- The state after an access that its page does not take, with the code of its answer. -/
def answered (s : State) (e : Nat) : State := { s with regData := 0, regErr := e }

theorem settle_answered {s : State} (e : Nat) (hw : s.wbuf = []) (hr : s.rbuf = []) : settle s (answered s e) = answered s e :=
  settle_still rfl rfl rfl rfl hw hr

theorem portWrite_silent {page : Nat} {s : State} (f : State → State) (ha : awake s = false) : portWrite page f s = .next s := by
  simp [portWrite, ha]

theorem portWrite_unmapped {page : Nat} {s : State} (f : State → State) (hw : s.wbuf = []) (hr : s.rbuf = []) (ha : awake s = true)
    (hp : pageExists page = false) : portWrite page f s = .next (answered s 1) := by
  rw [← settle_answered 1 hw hr]
  simp [portWrite, ha, hp, answered]

theorem portWrite_asleep {page : Nat} {s : State} (f : State → State) (hw : s.wbuf = []) (hr : s.rbuf = []) (ha : awake s = true)
    (hp : pageExists page = true) (hs : regAsleep s page = true) : portWrite page f s = .next (answered s 2) := by
  rw [← settle_answered 2 hw hr]
  simp [portWrite, ha, hp, hs, answered]

/-- In KEEP every page sleeps but GLB, PWR and RAS (R24). -/
theorem regAsleep_of_keep {page : Nat} {s : State} (hk : s.power.state = .keep) (h0 : page ≠ 0x00) (h2 : page ≠ 0x02)
    (h3 : page ≠ 0x03) : regAsleep s page = true := by
  simp [regAsleep, pageInKeep, hk, h0, h2, h3]

/-- An instruction that accesses a register of `page`. -/
def Accesses (i : Instr) (page : Nat) : Prop := ∃ f : State → State, ∀ s, exec i s = portWrite page f s

theorem Accesses.refused {i : Instr} {page : Nat} (h : Accesses i page) {s : State} (hw : s.wbuf = []) (hr : s.rbuf = []) :
    (awake s = false → exec i s = .next s) ∧
    (awake s = true → pageExists page = false → exec i s = .next (answered s 1)) ∧
    (awake s = true → pageExists page = true → regAsleep s page = true → exec i s = .next (answered s 2)) := by
  obtain ⟨f, hf⟩ := h
  rw [hf s]
  exact ⟨portWrite_silent f, portWrite_unmapped f hw hr, portWrite_asleep f hw hr⟩

/-- Settles O48: each register row is an access to its page, and an access that its page does not take is refused. -/
theorem registerPortAnswers : Obligations.RegisterPortAnswers := by
  unfold Obligations.RegisterPortAnswers
  intro i page s hw hr hrow
  have hacc : Accesses i page := by
    rcases hrow with ⟨a, v, rfl, rfl⟩ | ⟨p, rfl, rfl | rfl | ⟨m, rfl⟩⟩ | ⟨rfl, rfl | rfl | ⟨v, rfl | rfl⟩⟩ | ⟨rfl, v, rfl⟩ | ⟨rfl, rfl⟩ |
      ⟨rfl, v, rfl | ⟨b, rfl⟩⟩ | ⟨rfl, rfl | ⟨v, rfl⟩⟩ | ⟨rfl, rfl⟩ | ⟨rfl, rfl⟩ |
      ⟨q, rfl, rfl | ⟨v, rfl | rfl⟩ | ⟨v, rfl | rfl⟩⟩
    all_goals exact ⟨_, fun _ => by dsimp only [exec]; rfl⟩
  obtain ⟨hsilent, hunmapped, hasleep⟩ := hacc.refused hw hr
  refine ⟨hsilent, fun ha hp => ⟨_, hunmapped ha hp, rfl⟩, fun ha hp hk h0 h2 h3 => ?_⟩
  exact ⟨_, hasleep ha hp (regAsleep_of_keep hk h0 h2 h3), rfl⟩

end Sys2Proof.Machine
end

section
/-! SUPPORT. O14: a table of arrays that lists one array twice can keep a PLAIN from ending. -/

namespace Sys2Proof.Machine

/-- The row of a PLAIN makes the moves of its command (log 10). -/
theorem exec_plain {r : CmdRef} {s : State} {c : Cmd} (hc : findCmd s (refKey r) = some c) (ho : dOp c.desc = 0x02) :
    exec (.plain r) s = .next (productRun (refKey r) (productFuel c) s) := by
  change execProduct 0x02 r s = _
  simp [execProduct, isOp, hc, ho]

/-- The first command of queue 1. -/
def loneRef : CmdRef := ⟨1#4, 0#32⟩

/-- A PLAIN of one row, one output and one K, all its records at address 0, its tile dealt to array 0 and its row screened. -/
def lonePlain : Cmd :=
  { newCmd State.reset (refKey loneRef) (natLE 0x02 1 ++ zeros 0x4F ++ natLE 1 4 ++ natLE 1 4 ++ natLE 1 4) 0 with
    screened := 1, items := [⟨.stat, 0, 0, 0, 0, .todo⟩] }

/-- An entry of array 0 for a place behind the first one, where `arrayOf` does not find it, with a row group of the PLAIN in it. -/
def shadowedEntry : ArraySt := { arrayReset with groups := [⟨refKey loneRef, 0, (0, []), 0, false, false, false, [], []⟩] }

/-- The PLAIN alone in ACTIVE with its operands held, all memory 0. The table of arrays is not in canonical form: it lists array 0 idle, as
`arrayOf` reads it, and a second time behind that. -/
def shadowedState : State :=
  { State.reset with
    power := ⟨.active, .running, true, true, false, false, false, false, 0, 0⟩
    cmds := [lonePlain]
    staged := [⟨refKey loneRef, 0, (⟨1, 0, 0, 0⟩ : Blk).code, 4, []⟩, ⟨refKey loneRef, 0, (⟨7, 0, 0, 0⟩ : Blk).code, 4, []⟩]
    arrays := [(0, { arrayReset with on := true }), (0, shadowedEntry)] }

theorem ready_lonePlain : Ready shadowedState (refKey loneRef) lonePlain := by
  unfold Ready
  decide +kernel

theorem lonePlain_fields : dOp lonePlain.desc = 0x02 ∧ lonePlain.lat.policy = 0 ∧ dTags lonePlain.desc = 0 ∧ pSform lonePlain.desc = false ∧
    pToGroup lonePlain.desc = false ∧ pM lonePlain.desc = 1 ∧ pNExt lonePlain.desc = 1 ∧ 1 ≤ pKExt lonePlain.desc := by
  decide +kernel

/-- Array 0 may work, and its core holds the two blocks of the one K-block. -/
theorem shadowedState_works : arrayPower shadowedState = true ∧ failedArray shadowedState 0 = false ∧
    ∀ kb < ceilDiv (pKExt lonePlain.desc) 256, ∀ b ∈ [(⟨1, 0, 0, kb⟩ : Blk), ⟨7, 0, kb, 0⟩],
      blkAsked shadowedState lonePlain (0 / 4) b = true := by
  decide +kernel

/-- The output is one FP32 element, stored alone. -/
theorem shadowedState_output : let l := layoutAt shadowedState lonePlain.outRec
    disjointLayout l = true ∧ l.mx = false ∧ axisRow l 0 = false ∧ layoutBits l = 32 := by
  decide +kernel

theorem arrayOf_shadowedState {b : Nat} (hb : b ≠ 0) : arrayOf shadowedState b = arrayReset := by
  simp [arrayOf, shadowedState, tget, hb.symm]

/-- The PLAIN's row makes all the moves it can, and the command has not ended: its end asks every listed entry, the shadowed one too, for work
of the command (`noneInFlight`). -/
theorem lonePlain_stays_started :
    (findCmd (productRun (refKey loneRef) (productFuel lonePlain) shadowedState) (refKey loneRef)).map (·.phase) = some .started := by
  decide +kernel

/-- Refutes O14: the statement bounds the arrays as `arrayOf` reads them and not the entries that the table lists, so array 0 may be listed
twice, idle first and behind that, out of reach, with a row group of the command. Where the command should end, `noneInFlight` asks every
listed entry and finds that row group, so the row leaves the command started. -/
theorem not_plainStoresItsCanonicalSum : ¬ Obligations.PlainStoresItsCanonicalSum := by
  unfold Obligations.PlainStoresItsCanonicalSum
  intro h
  have hothers : ∀ b, b ≠ 0 → arrayOf shadowedState b = { arrayReset with on := (arrayOf shadowedState b).on } := fun b hb => by
    rw [arrayOf_shadowedState hb]
  obtain ⟨hop, hpolicy, htags, hsform, hgroup, hm, hn, hk⟩ := lonePlain_fields
  obtain ⟨hpower, hfailed, hasked⟩ := shadowedState_works
  obtain ⟨hdisjoint, hmx, haxis, hbits⟩ := shadowedState_output
  obtain ⟨t, flags, hrun, ⟨x, hx, hended, -⟩, -⟩ := h loneRef shadowedState lonePlain 0 0 ready_lonePlain rfl hop (by decide) rfl rfl rfl rfl
    rfl rfl hpolicy rfl rfl htags hsform hgroup hm hn hk rfl hpower hfailed rfl hothers rfl rfl rfl rfl rfl hasked hdisjoint hmx haxis hbits
  have hfind : findCmd shadowedState (refKey loneRef) = some lonePlain := ready_lonePlain.1
  rw [exec_plain hfind hop] at hrun
  have ht := Host.Outcome.next.inj hrun
  have hstays := lonePlain_stays_started
  rw [ht, show refKey loneRef = lonePlain.key from rfl, hx, Option.map_some, hended] at hstays
  exact absurd hstays (by decide)

end Sys2Proof.Machine
end

section
/-! SUPPORT. O53: the reads and the write that advance an address, and the advisor's evaluations (R80, R82, R292, R377, R424). -/

namespace Sys2Proof.Machine

/-! ### Addresses that advance (R82, R292) -/

/-- The fields `lo` and `hi` of an address and its `inc` bit, which software writes. -/
structure AddrFields (inc lo hi : Field) : Prop where
  inc_rw : inc.acc = .rw
  lo_rw : lo.acc = .rw
  hi_rw : hi.acc = .rw
  apart : fieldKey lo ≠ fieldKey hi

/-- The address after the one of the fields `lo` and `hi`, as one number. -/
def addrNext (lo hi : Field) (s : State) : Nat := rd s hi * 2 ^ lo.width + rd s lo + 1

/-- With `inc` set the address advances, `lo` carrying into `hi`. -/
def advanced (inc lo hi : Field) (s : State) : State :=
  if rd s inc = 1 then wr (wr s lo (addrNext lo hi s % 2 ^ lo.width)) hi (addrNext lo hi s / 2 ^ lo.width) else s

/-- The address of `t` is that of `s`, advanced where `inc` is set. -/
def Moved (inc lo hi : Field) (s t : State) : Prop :=
  if rd s inc = 1 then rd t lo = addrNext lo hi s % 2 ^ lo.width ∧ rd t hi = addrNext lo hi s / 2 ^ lo.width % 2 ^ hi.width
  else rd t lo = rd s lo ∧ rd t hi = rd s hi

theorem wr_rw_only (s : State) {f : Field} (v : Nat) (hf : f.acc = .rw) : wr s f v = { s with cfg := (wr s f v).cfg } := by
  rw [wr_only, wr_sts_rw s f v (.inl hf)]

theorem advanced_kept (inc lo hi : Field) (s : State) :
    FieldsKept s (advanced inc lo hi s) (if rd s inc = 1 then [lo, hi] else []) := by
  unfold advanced
  split
  · exact ((FieldsKept.wr s lo _).mono (by simp)).trans ((FieldsKept.wr _ hi _).mono (by simp))
  · exact .refl s _

section
variable {inc lo hi : Field} (hf : AddrFields inc lo hi)
include hf

theorem advanced_only (s : State) : advanced inc lo hi s = { s with cfg := (advanced inc lo hi s).cfg } := by
  unfold advanced
  split
  · rw [wr_rw_only _ _ hf.hi_rw, wr_rw_only _ _ hf.lo_rw]
  · rfl

/-- The move depends on what software has written before alone. -/
theorem advanced_moves {s x : State} (hc : x.cfg = s.cfg) : Moved inc lo hi s (advanced inc lo hi x) := by
  have hrd : ∀ {f : Field}, f.acc = .rw → rd x f = rd s f := fun h => rd_congr_rw (.inl h) hc
  unfold Moved advanced addrNext
  rw [hrd hf.inc_rw, hrd hf.lo_rw, hrd hf.hi_rw]
  split
  · exact ⟨by rw [rd_wr_ne _ _ hf.apart, rd_wr_self _ (.inl hf.lo_rw), Nat.mod_mod], rd_wr_self _ (.inl hf.hi_rw)⟩
  · exact ⟨hrd hf.lo_rw, hrd hf.hi_rw⟩

end

/-- A step that writes fields outside the event registers ends as it stands. -/
theorem settle_fields {s u : State} {l : List Field} (hk : FieldsKept s u l) (hl : ∀ f ∈ l, noEvent f = true)
    (ho : u.pending = s.pending ∧ u.mem = s.mem ∧ u.wbuf = [] ∧ u.rbuf = []) : settle s u = u := by
  obtain ⟨hp, hm, hw, hr⟩ := ho
  exact settle_dry (hk.irqRises hl) hp hm hw hr

/-- A register access of which `x` has the effect but for the advance of an address. -/
theorem settle_advanced {inc lo hi : Field} {s x : State} (hf : AddrFields inc lo hi) (hl : ∀ f ∈ [lo, hi], noEvent f = true)
    (hk : FieldsKept s x []) (ho : x.pending = s.pending ∧ x.mem = s.mem ∧ x.wbuf = [] ∧ x.rbuf = []) :
    settle s (advanced inc lo hi x) = advanced inc lo hi x := by
  refine settle_fields (l := [lo, hi]) ((hk.mono (by simp)).trans ((advanced_kept inc lo hi x).mono (by split <;> simp))) hl ?_
  rw [advanced_only hf]; exact ho

/-- A read that answers with a word and then advances the address of its page. -/
theorem Reaches.read_advances {inc lo hi : Field} {page : Nat} {s : State} (h : Reaches s page) (hf : AddrFields inc lo hi)
    (hl : ∀ f ∈ [lo, hi], noEvent f = true) (word : State → Nat) (hword : word (granted s) = word s) :
    ∃ t, portWrite page (fun s => advanced inc lo hi { s with regData := word s }) s = .next t ∧ t.regData = word s ∧
      Moved inc lo hi s t ∧ FieldsKept s t (if rd s inc = 1 then [lo, hi] else []) ∧
      t = { s with cfg := t.cfg, regData := t.regData, regErr := 0 } := by
  let x : State := { granted s with regData := word s }
  have hset : settle s (advanced inc lo hi x) = advanced inc lo hi x := by
    obtain ⟨_, _, _, hw, hr⟩ := h
    exact settle_advanced hf hl (fun _ _ => rfl) ⟨rfl, rfl, hw, hr⟩
  have hdata : (advanced inc lo hi x).regData = word s := by rw [advanced_only hf]
  refine ⟨advanced inc lo hi x, ?_, hdata, advanced_moves hf rfl, advanced_kept inc lo hi x, ?_⟩
  · rw [h.acts, hword, hset]
  · rw [hdata]; exact advanced_only hf x

/-! ### ADV_DATA (R80, R82) -/

theorem advAddrFields : AddrFields fmtAdvAddrInc fmtAdvAddrWord fmtAdvAddrLayer := ⟨rfl, rfl, rfl, by decide⟩

@[simp] theorem layerOf_setLayer_self (s : State) (l : Nat) (x : AdvLayer) : layerOf (setLayer s l x) l = x := tget_tput_self ..

theorem layerOf_setLayer_ne (s : State) {l k : Nat} (x : AdvLayer) (h : k ≠ l) : layerOf (setLayer s l x) k = layerOf s k := tget_tput_ne _ _ h

theorem advDataRead_acts {s : State} (h : Reaches s 0x07) : ∃ t, exec .advDataRead s = .next t ∧ t.regData = advSelected s ∧
    Moved fmtAdvAddrInc fmtAdvAddrWord fmtAdvAddrLayer s t ∧ FieldsKept s t [fmtAdvAddrWord, fmtAdvAddrLayer] ∧
    t = { s with cfg := t.cfg, regData := t.regData, regErr := 0 } := by
  obtain ⟨t, hexec, hdata, hmoved, hkept, hframe⟩ := h.read_advances advAddrFields (by decide) advSelected rfl
  exact ⟨t, hexec, hdata, hmoved, hkept.mono (by split <;> simp), hframe⟩

/-- The layer that the address names. -/
def advLayer (s : State) : Nat := rd s fmtAdvAddrLayer

/-- A layer with its config masks written. -/
def masked (v : Nat) (x : AdvLayer) : AdvLayer := { x with dxMask := bitsOf v 0 10, homeMask := bitsOf v 16 2, stale := true }

theorem advDataWrite_masks (v : Word) {s : State} (h : Reaches s 0x07) (hset : rd s fmtAdvAddrSet = 0) (hword : rd s fmtAdvAddrWord = 0) :
    ∃ t, exec (.advDataWrite v) s = .next t ∧ Moved fmtAdvAddrInc fmtAdvAddrWord fmtAdvAddrLayer s t ∧
      layerOf t (advLayer s) = masked v.toNat (layerOf s (advLayer s)) ∧ (∀ l, l ≠ advLayer s → layerOf t l = layerOf s l) ∧
      FieldsKept s t [fmtAdvAddrWord, fmtAdvAddrLayer] ∧ t = { s with cfg := t.cfg, advisor := t.advisor, regData := 0, regErr := 0 } := by
  let x := setLayer (granted s) (advLayer s) (masked v.toNat (layerOf s (advLayer s)))
  let t := advanced fmtAdvAddrInc fmtAdvAddrWord fmtAdvAddrLayer x
  have hend : settle s t = t := by
    obtain ⟨_, _, _, hw, hr⟩ := h
    exact settle_advanced advAddrFields (by decide) (fun _ _ => rfl) ⟨rfl, rfl, hw, hr⟩
  have hexec : exec (.advDataWrite v) s = .next t := by
    rw [← hend]
    refine (h.acts _).trans ?_
    rw [writeAdvData, rd_granted, rd_granted, if_pos ⟨hset, hword⟩]
    rfl
  have hadv : t.advisor = x.advisor := by rw [show t = _ from advanced_only advAddrFields x]
  have hlayers : ∀ l, layerOf t l = layerOf x l := fun l => by rw [layerOf, layerOf, hadv]
  refine ⟨t, hexec, advanced_moves advAddrFields rfl, ?_, fun l hl => ?_, ?_, ?_⟩
  · rw [hlayers]; exact layerOf_setLayer_self ..
  · rw [hlayers]; exact layerOf_setLayer_ne _ _ hl
  · exact (advanced_kept _ _ _ x).mono (by split <;> simp)
  · rw [hadv]; exact advanced_only advAddrFields x

theorem advDataWrite_refused (v : Word) {s : State} (h : Reaches s 0x07) (hplace : rd s fmtAdvAddrSet ≠ 0 ∨ rd s fmtAdvAddrWord ≠ 0) :
    ∃ t, exec (.advDataWrite v) s = .next t ∧ Moved fmtAdvAddrInc fmtAdvAddrWord fmtAdvAddrLayer s t ∧
      bitOf (rd t (hdrEvt 0x07)) 1 = true ∧ FieldsKept s t ([fmtAdvAddrWord, fmtAdvAddrLayer] ++ eventFields 0x07) ∧
      t = { s with cfg := t.cfg, sts := t.sts, trace := t.trace, cport := t.cport, regData := 0, regErr := 0 } := by
  let x := setEvt (granted s) (evBadValue 0x07)
  let u := advanced fmtAdvAddrInc fmtAdvAddrWord fmtAdvAddrLayer x
  have hkx : FieldsKept (granted s) x (eventFields 0x07) := FieldsKept.setEvt _ _
  have hku : FieldsKept x u [fmtAdvAddrWord, fmtAdvAddrLayer] := (advanced_kept _ _ _ x).mono (by split <;> simp)
  have hru : RegsOnly x u := by rw [show u = _ from advanced_only advAddrFields x]; rfl
  have hexec : exec (.advDataWrite v) s = .next (settle s u) := by
    refine (h.acts _).trans ?_
    rw [writeAdvData, rd_granted, rd_granted, if_neg (by omega)]
    rfl
  have hmoved : Moved fmtAdvAddrInc fmtAdvAddrWord fmtAdvAddrLayer s u := advanced_moves advAddrFields (setEvt_cfg ..)
  refine ⟨settle s u, hexec, ?_, ?_, ?_, h.settle_regs ((RegsOnly.setEvt _ _).trans hru)⟩
  · simpa only [Moved, rd_settle] using hmoved
  · rw [rd_settle, hku _ (by decide)]
    exact setEvt_sets (e := evBadValue 0x07) _ (by decide)
  · exact ((hkx.mono (by simp)).trans (hku.mono (by simp))).settle (s := s)

/-! ### STAT_DATA, LOG_DATA3 (R292, R377) -/

theorem statAddrFields : AddrFields updStatAddrInc updStatAddrWord updStatAddrId := ⟨rfl, rfl, rfl, by decide⟩

theorem statDataRead_acts {s : State} (h : Reaches s 0x0D) : ∃ t, exec .statDataRead s = .next t ∧ t.regData = statSelected s ∧
    Moved updStatAddrInc updStatAddrWord updStatAddrId s t ∧
    FieldsKept s t (if rd s updStatAddrInc = 1 then [updStatAddrWord, updStatAddrId] else []) ∧
    t = { s with cfg := t.cfg, regData := t.regData, regErr := 0 } :=
  h.read_advances statAddrFields (by decide) statSelected rfl

theorem logData3Read_acts {s : State} (h : Reaches s 0x03) : ∃ t, exec .logData3Read s = .next t ∧ t.regData = logWord s 3 ∧
    (rd s rasLogSelInc = 1 → rd t rasLogSelIndex = (rd s rasLogSelIndex + 1) % 256) ∧
    FieldsKept s t (if rd s rasLogSelInc = 1 then [rasLogSelIndex] else []) ∧
    t = { s with cfg := t.cfg, regData := t.regData, regErr := 0 } := by
  let x : State := { granted s with regData := logWord s 3 }
  let t := if rd s rasLogSelInc = 1 then wr x rasLogSelIndex (rd s rasLogSelIndex + 1) else x
  have honly : t = { x with cfg := t.cfg } := by
    dsimp only [t]
    split
    · exact wr_rw_only x _ rfl
    · rfl
  have hkept : FieldsKept s t (if rd s rasLogSelInc = 1 then [rasLogSelIndex] else []) := by
    dsimp only [t]
    split
    · exact FieldsKept.wr x _ _
    · exact fun _ _ => rfl
  have hend : settle s t = t := by
    obtain ⟨_, _, _, hw, hr⟩ := h
    refine settle_fields hkept (by split <;> decide) ?_
    rw [honly]; exact ⟨rfl, rfl, hw, hr⟩
  have hdata : t.regData = logWord s 3 := by rw [honly]
  refine ⟨t, ?_, hdata, fun hinc => ?_, hkept, ?_⟩
  · rw [← hend]
    change execLogData3Read s = _
    rw [execLogData3Read, h.acts]
    rfl
  · rw [show t = _ from if_pos hinc]; exact rd_wr_self _ (.inl rfl)
  · rw [hdata]; exact honly

/-! ### ADVISOR_EVALUATION (R80) -/

theorem advisorEvaluation_acts (layer : BitVec 8) {s : State} (hw : s.wbuf = []) (hr : s.rbuf = []) (hu : unitsRun s = true)
    (hstale : (layerOf s layer.toNat).stale = true) : ∃ t, exec (.advisorEvaluation layer) s = .next t ∧
      layerOf t layer.toNat = { layerOf s layer.toNat with staged := evalLayer s (layerOf s layer.toNat), stale := false } ∧
      (∀ k, k ≠ layer.toNat → layerOf t k = layerOf s k) ∧ t = { s with advisor := t.advisor } := by
  let t := setLayer s layer.toNat { layerOf s layer.toNat with staged := evalLayer s (layerOf s layer.toNat), stale := false }
  have hend : settle s t = t := settle_still rfl rfl rfl rfl hw hr
  have hexec : exec (.advisorEvaluation layer) s = .next t := by
    rw [← hend]
    change execAdvisorEvaluation layer s = _
    simp [execAdvisorEvaluation, hu, hstale, t]
  exact ⟨t, hexec, layerOf_setLayer_self .., fun k hk => layerOf_setLayer_ne _ _ hk, rfl⟩

theorem advisorEvaluation_waits (layer : BitVec 8) {s : State} (h : unitsRun s = false ∨ (layerOf s layer.toNat).stale = false) :
    exec (.advisorEvaluation layer) s = .next s := by
  change execAdvisorEvaluation layer s = _
  rcases h with h | h <;> simp [execAdvisorEvaluation, h]

/-- Settles O53: the two data registers are reads that advance one shared form of address, a write of ADV_DATA is one of the config masks or a
refusal, and an evaluation is outstanding or not. -/
theorem addressedWordsAdvance : Obligations.AddressedWordsAdvance := by
  unfold Obligations.AddressedWordsAdvance
  refine ⟨fun s h => ⟨advDataRead_acts h, fun v => ⟨fun hset hword => ?_, advDataWrite_refused v h⟩⟩, fun s h => ?_, fun s h => logData3Read_acts h,
    fun layer s hw hr => ⟨fun hu hstale => ?_, advisorEvaluation_waits layer⟩⟩
  · obtain ⟨t, hexec, hmoved, hlayer, hothers, hkept, hframe⟩ := advDataWrite_masks v h hset hword
    have hlayer : layerOf t (rd s fmtAdvAddrLayer) = masked v.toNat (layerOf s (rd s fmtAdvAddrLayer)) := hlayer
    refine ⟨t, hexec, hmoved, ?_, ?_, ?_, ?_, hothers, hkept, hframe⟩ <;> rw [hlayer] <;> rfl
  · obtain ⟨t, hexec, hdata, hmoved, hkept, hframe⟩ := statDataRead_acts h
    exact ⟨t, hexec, hdata, fun hinc => by rwa [Moved, if_pos hinc] at hmoved, hkept, hframe⟩
  · obtain ⟨t, hexec, hlayer, hothers, hframe⟩ := advisorEvaluation_acts layer hw hr hu hstale
    refine ⟨t, hexec, ?_, ?_, ?_, hothers, hframe⟩ <;> rw [hlayer]

end Sys2Proof.Machine
end

section
/-! SUPPORT. O15: which rows take part under a ledger view, and when LEDGER_VIEW takes it (R68, R222, R225 to R227). -/

namespace Sys2Proof.Machine

/-! ### The row screen (R68, R222, R225) -/

/-- The ledger lets a row enter by its tag (R225): no reserved bit, and the anonymous slot or one of its generation that is neither CANCELLED nor
QUARANTINED. -/
theorem ledgerDecide_enter_iff (view : List (Nat × LSlot)) (t : Nat) : ledgerDecide view t = .enter ↔ tagReserved t = false ∧
    (tagSlot t = anonSlot ∨ tagGen t = (tget lslotReset view (tagSlot t)).gen ∧ (tget lslotReset view (tagSlot t)).state ≠ 1 ∧
      (tget lslotReset view (tagSlot t)).state ≠ 2) := by
  unfold ledgerDecide
  dsimp only
  cases htag : tagReserved t
  case true => simp
  case false =>
    by_cases hanon : tagSlot t = anonSlot
    · simp [hanon]
    · by_cases hgen : tagGen t = (tget lslotReset view (tagSlot t)).gen
      · by_cases hc : (tget lslotReset view (tagSlot t)).state = 1
        · simp [hanon, hgen, hc]
        · by_cases hq : (tget lslotReset view (tagSlot t)).state = 2 <;> simp [hanon, hgen, hc, hq]
      · simp [hanon, hgen]

/-- A row takes part when it may enter and is not marked under QUARANTINE or TRAP (R68, R225). -/
theorem judgeRow_part_iff (s : State) (view : List (Nat × LSlot)) (policy t : Nat) (marked : Bool) :
    (judgeRow s view policy t marked).2.1 = .part ↔ ledgerDecide view t = .enter ∧ ¬ (marked = true ∧ (policy = 1 ∨ policy = 2)) := by
  unfold judgeRow
  cases ledgerDecide view t
  case enter =>
    by_cases h1 : policy = 1
    · cases marked <;> simp [h1]
    · by_cases h2 : policy = 2 <;> cases marked <;> simp [h1, h2]
  all_goals simp

/-- A screened operand of the row holds a NaN or Inf (R187). -/
def Marked (v : State) (d : List Byte) (row : Nat) : Prop := ∃ op ∈ screenedOps d, rowBad v d op row ≠ []

/-- The operands with a non-finite element in the row, each with its columns. -/
def badOps (v : State) (d : List Byte) (row : Nat) : List (Nat × List Nat) :=
  ((screenedOps d).map (fun op => (op, rowBad v d op row))).filter (fun p => !p.2.isEmpty)

theorem badOps_marked_iff (v : State) (d : List Byte) (row : Nat) : (!(badOps v d row).isEmpty) = true ↔ Marked v d row := by
  simp [badOps, Marked]

/-- What the screen makes of a row of the command. -/
def screenFate (v s : State) (c : Cmd) (row : Nat) : RowFate :=
  (judgeRow s (viewOf s c) c.lat.policy (tagOf v c.desc row)
    (!(if ledgerDecide (viewOf s c) (tagOf v c.desc row) == .enter then badOps v c.desc row else []).isEmpty)).2.1

/-- A row takes part when the ledger lets it enter and no mark under QUARANTINE or TRAP keeps it out. -/
theorem screenFate_part_iff (v s : State) (c : Cmd) (row : Nat) : screenFate v s c row = .part ↔
    ledgerDecide (viewOf s c) (tagOf v c.desc row) = .enter ∧ ¬ (Marked v c.desc row ∧ (c.lat.policy = 1 ∨ c.lat.policy = 2)) := by
  rw [screenFate, judgeRow_part_iff]
  refine and_congr_right fun henter => ?_
  rw [henter, if_pos (by decide), badOps_marked_iff]

/-- A screened row joins those without part unless it takes part. -/
theorem husked_screenRow (v s : State) (bs : List (Nat × Blk)) (c : Cmd) (row : Nat) : (screenRow v bs row (s, c)).2.husked =
    if screenFate v s c row == .part then c.husked else c.husked ++ [row] := rfl

theorem rowPart_screenRow_self (v s : State) (bs : List (Nat × Blk)) {c : Cmd} {row : Nat} (h : rowPart c row = true) :
    rowPart (screenRow v bs row (s, c)).2 row = true ↔ screenFate v s c row = .part := by
  rw [rowPart, husked_screenRow]
  cases screenFate v s c row
  case part => simpa [rowPart] using h
  all_goals simp

/-- The screening of a row judges no other row. -/
theorem rowPart_screenRow_ne (v s : State) (bs : List (Nat × Blk)) (c : Cmd) {row q : Nat} (h : q ≠ row) :
    rowPart (screenRow v bs row (s, c)).2 q = rowPart c q := by
  rw [rowPart, rowPart, husked_screenRow]
  split
  · rfl
  · simp [h]

theorem tagOf_untagged (v : State) {d : List Byte} (row : Nat) (h : dTags d = 0) : tagOf v d row = anonSlot := if_pos h

theorem ledgerDecide_anonymous (view : List (Nat × LSlot)) : ledgerDecide view anonSlot = .enter :=
  (ledgerDecide_enter_iff view _).mpr ⟨by decide, .inl (by decide)⟩

/-! ### LEDGER_VIEW (R227) -/

theorem lostFails_none {s : State} (b : List Byte) (h : s.ras.lost = []) : lostFails s b = false := by
  simp [lostFails, h]

/-- A command without a view takes the ledger as it stands. -/
theorem ledgerView_takes {r : CmdRef} {s : State} {c : Cmd} (h : Ready s (refKey r) c) (htakes : takesView c.desc = true) (hview : c.view = none)
    (hready : viewReady s c = true) : ∃ t, exec (.ledgerView r) s = .next t ∧ findCmd t c.key = some { c with view := some s.ledger } ∧
      Others s t c.key ∧ t = { s with cmds := t.cmds } := by
  obtain ⟨hfind, hrun, _, hdamage, hlost, hw, hr⟩ := h
  let f : Cmd → Cmd := fun e => { e with view := some s.ledger }
  let t := modCmd s c.key f
  have hexec : exec (.ledgerView r) s = .next (settle s t) := by
    change execLedgerView r s = _
    simp [execLedgerView, hfind, hrun, htakes, hview, hready, meetDamage_none _ _ hdamage, lostFails_none _ hlost, t, f]
  have hend : settle s t = t := settle_still rfl rfl rfl rfl hw hr
  refine ⟨t, by rw [hexec, hend], ?_, fun j hj => findCmd_modCmd_ne s hj fun _ => rfl, rfl⟩
  rw [← findCmd_key hfind] at hfind
  exact findCmd_modCmd (f := f) hfind fun _ => rfl

theorem ledgerView_waits {r : CmdRef} {s : State} {c : Cmd} (hfind : findCmd s (refKey r) = some c) (hready : viewReady s c = false) :
    exec (.ledgerView r) s = .next s := by
  change execLedgerView r s = _
  simp [execLedgerView, hfind, hready]

/-- Settles O15: a row keeps its part exactly when the ledger lets it enter and no mark keeps it out, and each clause names one of these causes. -/
theorem ledgerViewsScreenRows : Obligations.LedgerViewsScreenRows := by
  unfold Obligations.LedgerViewsScreenRows
  refine ⟨fun v s bs c row hpart => ?_, fun r s c h htakes hview => ⟨ledgerView_takes h htakes hview, ledgerView_waits h.1⟩⟩
  have hself := (rowPart_screenRow_self v s bs hpart).trans (screenFate_part_iff v s c row)
  have henter := ledgerDecide_enter_iff (viewOf s c) (tagOf v c.desc row)
  refine ⟨fun hreserved => ?_, fun hslot hstate => ?_, fun hpolicy hmarked => ?_, fun htags hpolicy => ?_, fun q hq => rowPart_screenRow_ne v s bs c hq⟩
  · rw [Bool.eq_false_iff, ne_eq, hself, henter, hreserved]
    simp
  · rw [Bool.eq_false_iff, ne_eq, hself, henter]
    rintro ⟨⟨-, hanon | ⟨hgen, hcancelled, hquarantined⟩⟩, -⟩
    · exact hslot hanon
    · rcases hstate with h | h | h
      · exact hcancelled h
      · exact hquarantined h
      · exact h hgen
  · rw [Bool.eq_false_iff, ne_eq, hself]
    exact fun ⟨_, hkept⟩ => hkept ⟨hmarked, hpolicy⟩
  · rw [hself, tagOf_untagged v row htags]
    exact ⟨ledgerDecide_anonymous _, fun ⟨_, hkept⟩ => by omega⟩

end Sys2Proof.Machine
end

section
/-! SUPPORT. O42: the carries of a finished window go to a plane of the next unit or into the hod, and from there into a plane (R61, R124 to
R126). -/

namespace Sys2Proof.Machine

/-! ### Moves of the engine -/

/-- A move that writes no register and no memory ends as it stands. -/
theorem answer_still {s t : State} (h : t = { s with arrays := t.arrays, cmds := t.cmds, hod := t.hod, staged := t.staged }) (hw : s.wbuf = [])
    (hr : s.rbuf = []) : answer s (some t) = .next t := by
  rw [answer, settle_still (by rw [h]) (by rw [h]) (by rw [h]) (by rw [h]) (by rw [h]; exact hw) (by rw [h]; exact hr)]

@[simp] theorem planeAt_setPlane (ar : ArraySt) (b : Bool) (x : Plane) : planeAt (setPlane ar b x) b = x := by
  cases b <;> rfl

/-! ### CARRY_RELAY (R124, R125) -/

/-- Plane A alone holds a finished window. -/
theorem carryOut_planeA {ar : ArraySt} (ha : ar.planeA.state = .active) (hl : ar.planeA.loaded = true)
    (hb : ar.planeB.state ≠ .active ∨ ar.planeB.loaded = false) : carryOut ar = some (false, ar.planeA) := by
  unfold carryOut
  rcases hb with hb | hb <;> simp [ha, hl, hb]

/-- The state without the relaying plane A, and with its unit's D work done when the window was the last (R124). -/
def relayed (s : State) (a : Nat) (c : Cmd) : State :=
  let s0 := setArray s a { arrayOf s a with planeA := planeFree }
  if (arrayOf s a).planeA.resume.1 + 1 = pV c.desc then modCmd s0 c.key (fun c => setItem c (arrayOf s a).planeA.item .done) else s0

theorem relayed_only (s : State) (a : Nat) (c : Cmd) : relayed s a c =
    { s with arrays := tput arrayReset s.arrays a { arrayOf s a with planeA := planeFree }, cmds := (relayed s a c).cmds } := by
  unfold relayed
  dsimp only
  split <;> rfl

theorem arrayOf_relayed_self (s : State) (a : Nat) (c : Cmd) : arrayOf (relayed s a c) a = { arrayOf s a with planeA := planeFree } := by
  rw [relayed_only]; exact tget_tput_self ..

theorem arrayOf_relayed_ne (s : State) {a b : Nat} (c : Cmd) (h : b ≠ a) : arrayOf (relayed s a c) b = arrayOf s b := by
  rw [relayed_only]; exact tget_tput_ne _ _ h

theorem findCmd_relayed_ne (s : State) (a : Nat) {c : Cmd} {j : Nat} (h : j ≠ c.key) : findCmd (relayed s a c) j = findCmd s j := by
  unfold relayed
  dsimp only
  split
  · exact findCmd_modCmd_ne _ h fun _ => rfl
  · rfl

/-- The command stays one that is not saved. -/
theorem findCmd_relayed_self {s : State} (a : Nat) {c : Cmd} (h : findCmd s c.key = some c) (hs : c.saved = false) :
    ∃ e, findCmd (relayed s a c) c.key = some e ∧ e.saved = false := by
  unfold relayed
  dsimp only
  split
  · exact ⟨_, findCmd_modCmd (f := fun c => setItem c (arrayOf s a).planeA.item .done) h fun _ => rfl, hs⟩
  · exact ⟨c, h, hs⟩

/-- The room for carries depends on the receiving array alone. -/
theorem carryRoom_congr {s t : State} (c : Cmd) (k v : Nat) {j : Item} (h : arrayOf t j.array = arrayOf s j.array) :
    carryRoom t c k v j = carryRoom s c k v j := by
  unfold carryRoom; rw [h]

/-- Carries of a command that is not saved stay in their planes (R129). -/
theorem saveCarries_unsaved (s : State) {c : Cmd} (h : c.saved = false) : saveCarries s c = s := by
  unfold saveCarries
  refine foldl_keeps id _ (fun x a => foldl_keeps id _ (fun y b => ?_) _ _) _ _
  simp [h]

/-- A tile of a command that is not saved joins the hod, and HOD_STAT keeps the peak (R126). -/
theorem enterHod_only (s : State) {c : Cmd} (t : HodTile) (h : c.saved = false) :
    enterHod s c t = { s with hod := s.hod ++ [t], sts := (enterHod s c t).sts } := by
  unfold enterHod
  rw [h, if_neg Bool.false_ne_true]
  rw [wr_only, wr_cfg_ro _ _ _ (.inl rfl)]

theorem enterHod_kept (s : State) {c : Cmd} (t : HodTile) (h : c.saved = false) : FieldsKept s (enterHod s c t) [corHodStatPeak 0] := by
  unfold enterHod
  rw [h, if_neg Bool.false_ne_true]
  exact FieldsKept.wr { s with hod := s.hod ++ [t] } _ _

/-- Plane A of the array holds a finished window of a command that is not saved; its next unit is tile `k`, item `j`, and may take it. -/
structure Relays (a : BitVec 5) (s : State) (c : Cmd) (i j : Item) (k : Nat) : Prop where
  units : unitsRun s = true
  out : carryOut (arrayOf s a.toNat) = some (false, (arrayOf s a.toNat).planeA)
  found : findCmd s (arrayOf s a.toNat).planeA.key = some c
  item : c.items[(arrayOf s a.toNat).planeA.item]? = some i
  next : nextUnit c i = some (k, j)
  goes : mustStop c j = false
  unsaved : c.saved = false

/-- The tile of the hod that holds the carries of plane A. -/
def carryTile (s : State) (a : Nat) (c : Cmd) (i : Item) : HodTile :=
  let pl := (arrayOf s a).planeA
  ⟨c.key, i.r, pl.resume.1, i.c + 1, pl.count, 0, pl.entries⟩

/-- The plane that holds the carries of plane A of array `a` for tile `k`. -/
def carriesOf (s : State) (a : Nat) (c : Cmd) (k : Nat) (j : Item) : Plane :=
  let pl := (arrayOf s a).planeA
  carryPlane (relayed s a c) c k pl.resume.1 j pl.count pl.entries

/-- The state with the carries in plane `b` of the next unit's array. -/
def delivered (s : State) (a : Nat) (c : Cmd) (k : Nat) (j : Item) (b : Bool) : State :=
  setArray (relayed s a c) j.array (setPlane (arrayOf s j.array) b (carriesOf s a c k j))

theorem delivered_only (s : State) (a : Nat) (c : Cmd) (k : Nat) (j : Item) (b : Bool) : delivered s a c k j b =
    { s with arrays := (delivered s a c k j b).arrays, cmds := (delivered s a c k j b).cmds } := by
  unfold delivered
  rw [relayed_only]
  rfl

section
variable {a : BitVec 5} {s : State} {c : Cmd} {i j : Item} {k : Nat} (h : Relays a s c i j k)
include h

theorem Relays.found_key : findCmd s c.key = some c := by
  rw [findCmd_key h.found]; exact h.found

/-- What the relay comes to, across the seam and within the row of lanes. -/
theorem Relays.move : relayMove s a.toNat =
    if overSeam s c i j then
      if hodUsed s < 16 then some (enterHod (relayed s a.toNat c) c (carryTile s a.toNat c i)) else none
    else (carryRoom (relayed s a.toNat c) c k (arrayOf s a.toNat).planeA.resume.1 j).map (fun b =>
      let s2 := setArray (relayed s a.toNat c) j.array
        (setPlane (arrayOf (relayed s a.toNat c) j.array) b (carriesOf s a.toNat c k j))
      (findCmd s2 c.key).elim s2 (saveCarries s2)) := by
  obtain ⟨hunits, hout, hfound, hitem, hnext, hgoes, hunsaved⟩ := h
  simp [relayMove, hout, hfound, hitem, hnext, hunits, hgoes, hunsaved, relayed, setPlane, carryTile, carriesOf]

/-- Across the seam the carries enter the hod while it has room (R125, R126). -/
theorem Relays.to_hod (hw : s.wbuf = []) (hr : s.rbuf = []) (hseam : overSeam s c i j = true) (hroom : hodUsed s < 16) :
    ∃ t, exec (.carryRelay a) s = .next t ∧ t.hod = s.hod ++ [carryTile s a.toNat c i] ∧
      arrayOf t a.toNat = { arrayOf s a.toNat with planeA := planeFree } ∧ (∀ b, b ≠ a.toNat → arrayOf t b = arrayOf s b) ∧
      Others s t c.key ∧ t = { s with arrays := t.arrays, cmds := t.cmds, hod := t.hod, sts := t.sts } := by
  let t := enterHod (relayed s a.toNat c) c (carryTile s a.toNat c i)
  have honly : t = { relayed s a.toNat c with hod := (relayed s a.toNat c).hod ++ [carryTile s a.toNat c i], sts := t.sts } :=
    enterHod_only _ _ h.unsaved
  have hframe : t = { s with arrays := t.arrays, cmds := t.cmds, hod := t.hod, sts := t.sts } := by
    rw [honly, relayed_only]
  have hkept : FieldsKept s t [corHodStatPeak 0] := by
    refine FieldsKept.trans (t := relayed s a.toNat c) ?_ (enterHod_kept _ _ h.unsaved)
    rw [relayed_only]
    exact fun _ _ => rfl
  have hend : settle s t = t := settle_fields hkept (by decide) (by rw [hframe]; exact ⟨rfl, rfl, hw, hr⟩)
  have hexec : exec (.carryRelay a) s = .next t := by
    change answer s (relayMove s a.toNat) = _
    rw [h.move, if_pos hseam, if_pos hroom, answer, hend]
  have harray : ∀ b, arrayOf t b = arrayOf (relayed s a.toNat c) b := fun b => by rw [honly]; rfl
  have hcmd : ∀ e, findCmd t e = findCmd (relayed s a.toNat c) e := fun e => findCmd_congr (by rw [honly]) e
  refine ⟨t, hexec, ?_, ?_, fun b hb => ?_, fun e he => ?_, hframe⟩
  · rw [honly, relayed_only]
  · rw [harray, arrayOf_relayed_self]
  · rw [harray, arrayOf_relayed_ne s c hb]
  · rw [hcmd, findCmd_relayed_ne s _ he]

/-- Without room in the hod the carries wait (R126). -/
theorem Relays.hod_full (hseam : overSeam s c i j = true) (hroom : 16 ≤ hodUsed s) : exec (.carryRelay a) s = .next s := by
  change answer s (relayMove s a.toNat) = _
  rw [h.move, if_pos hseam, if_neg (by omega), answer]

/-- To an array other than the relaying one the carries go into the plane that `carryRoom` finds, or they wait. -/
theorem Relays.move_within (hseam : overSeam s c i j = false) (hj : j.array ≠ a.toNat) : relayMove s a.toNat =
    (carryRoom s c k (arrayOf s a.toNat).planeA.resume.1 j).map (delivered s a.toNat c k j) := by
  have harray := arrayOf_relayed_ne s c hj
  obtain ⟨e, hfind, hsaved⟩ := findCmd_relayed_self a.toNat h.found_key h.unsaved
  rw [h.move, hseam, if_neg Bool.false_ne_true, carryRoom_congr c k _ harray, harray]
  congr 1
  funext b
  change (findCmd (relayed s a.toNat c) c.key).elim (delivered s a.toNat c k j b) _ = _
  rw [hfind, Option.elim_some, saveCarries_unsaved _ hsaved]
  rfl

theorem Relays.to_plane {b : Bool} (hw : s.wbuf = []) (hr : s.rbuf = []) (hseam : overSeam s c i j = false) (hj : j.array ≠ a.toNat)
    (hroom : carryRoom s c k (arrayOf s a.toNat).planeA.resume.1 j = some b) : ∃ t, exec (.carryRelay a) s = .next t ∧
      planeAt (arrayOf t j.array) b = carriesOf s a.toNat c k j ∧ arrayOf t a.toNat = { arrayOf s a.toNat with planeA := planeFree } ∧
      (∀ d, d ≠ a.toNat → d ≠ j.array → arrayOf t d = arrayOf s d) ∧ Others s t c.key ∧
      t = { s with arrays := t.arrays, cmds := t.cmds } := by
  let t := delivered s a.toNat c k j b
  have hexec : exec (.carryRelay a) s = .next t := by
    change answer s (relayMove s a.toNat) = _
    rw [h.move_within hseam hj, hroom, Option.map_some]
    exact answer_still (by rw [delivered_only]) hw hr
  refine ⟨t, hexec, ?_, ?_, fun d hda hdj => ?_, fun e he => findCmd_relayed_ne s _ he, delivered_only ..⟩
  · rw [show arrayOf t j.array = _ from arrayOf_setArray_self .., planeAt_setPlane]
  · rw [show arrayOf t a.toNat = _ from arrayOf_setArray_ne _ _ hj.symm, arrayOf_relayed_self]
  · rw [show arrayOf t d = _ from arrayOf_setArray_ne _ _ hdj, arrayOf_relayed_ne s c hda]

theorem Relays.no_plane (hseam : overSeam s c i j = false) (hj : j.array ≠ a.toNat)
    (hroom : carryRoom s c k (arrayOf s a.toNat).planeA.resume.1 j = none) : exec (.carryRelay a) s = .next s := by
  change answer s (relayMove s a.toNat) = _
  rw [h.move_within hseam hj, hroom, Option.map_none, answer]

end

/-! ### HOD_DELIVERY (R126) -/

/-- The oldest hod tile, of a command that is not saved and for item `j`, its tile `k`, which may take it. -/
structure Delivers (s : State) (h : HodTile) (rest : List HodTile) (c : Cmd) (k : Nat) (j : Item) : Prop where
  units : unitsRun s = true
  oldest : s.hod = h :: rest
  found : findCmd s h.key = some c
  unsaved : c.saved = false
  here : h.src = 0
  unit : (c.items.mapIdx (fun k x => (k, x))).find? (fun x => x.2.kind == .stat && x.2.r == h.strip && x.2.c == h.kb) = some (k, j)
  goes : mustStop c j = false

/-- The state with the tile in plane `b` of its unit's array. -/
def handedOver (s : State) (h : HodTile) (rest : List HodTile) (c : Cmd) (k : Nat) (j : Item) (b : Bool) : State :=
  setArray (dropBack { s with hod := rest } h.key h.src) j.array
    (setPlane (arrayOf s j.array) b (carryPlane s c k h.window j h.count h.entries))

section
variable {s : State} {h : HodTile} {rest : List HodTile} {c : Cmd} {k : Nat} {j : Item} (hd : Delivers s h rest c k j)
include hd

theorem Delivers.move : hodMove s = (carryRoom s c k h.window j).map (handedOver s h rest c k j) := by
  obtain ⟨hunits, holdest, hfound, hunsaved, hhere, hunit, hgoes⟩ := hd
  have hfirst : s.hod.find? (fun t => (findCmd s t.key).all (fun c => !c.saved)) = some h := by
    rw [holdest, List.find?_cons_of_pos]
    simp [hfound, hunsaved]
  unfold hodMove
  simp only [hfirst, hfound, hunit, hunits, hgoes, hhere]
  cases carryRoom s c k h.window j with
  | none => simp
  | some b => simp [handedOver, holdest, hhere]

theorem Delivers.to_plane {b : Bool} (hw : s.wbuf = []) (hr : s.rbuf = []) (hroom : carryRoom s c k h.window j = some b) :
    ∃ t, exec .hodDelivery s = .next t ∧ t.hod = rest ∧
      planeAt (arrayOf t j.array) b = carryPlane s c k h.window j h.count h.entries ∧ (∀ d, d ≠ j.array → arrayOf t d = arrayOf s d) ∧
      t = { s with arrays := t.arrays, hod := t.hod, staged := t.staged } := by
  let t := handedOver s h rest c k j b
  have hexec : exec .hodDelivery s = .next t := by
    change answer s (hodMove s) = _
    rw [hd.move, hroom, Option.map_some]
    exact answer_still rfl hw hr
  refine ⟨t, hexec, rfl, ?_, fun d hdj => arrayOf_setArray_ne _ _ hdj, rfl⟩
  rw [show arrayOf t j.array = _ from arrayOf_setArray_self .., planeAt_setPlane]

theorem Delivers.no_plane (hroom : carryRoom s c k h.window j = none) : exec .hodDelivery s = .next s := by
  change answer s (hodMove s) = _
  rw [hd.move, hroom, Option.map_none, answer]

end

/-- Settles O42: the relay and the delivery are moves whose plane or hod tile holds the carries with their count, or no moves at all. -/
theorem carriesAreRelayed : Obligations.CarriesAreRelayed := by
  unfold Obligations.CarriesAreRelayed
  constructor
  · intro a s c i j k hunits hw hr ar pl v hactive hloaded hB hfound hitem hnext hgoes hunsaved
    have h : Relays a s c i j k := ⟨hunits, carryOut_planeA hactive hloaded hB, hfound, hitem, hnext, hgoes, hunsaved⟩
    refine ⟨h.to_hod hw hr, h.hod_full, fun b hseam hj hroom => ?_, h.no_plane⟩
    obtain ⟨t, hexec, hplane, hrest⟩ := h.to_plane hw hr hseam hj hroom
    refine ⟨t, hexec, ?_⟩
    dsimp only
    rw [hplane]
    exact ⟨rfl, rfl, rfl, rfl, rfl, rfl, rfl, hrest⟩
  · intro s h rest c k j hunits hw hr holdest hfound hunsaved hhere hunit hgoes
    have hd : Delivers s h rest c k j := ⟨hunits, holdest, hfound, hunsaved, hhere, hunit, hgoes⟩
    refine ⟨fun b hroom => ?_, hd.no_plane⟩
    obtain ⟨t, hexec, hrest, hplane, hframe⟩ := hd.to_plane hw hr hroom
    refine ⟨t, hexec, hrest, ?_⟩
    dsimp only
    rw [hplane]
    exact ⟨rfl, rfl, rfl, rfl, rfl, rfl, rfl, hframe⟩

end Sys2Proof.Machine
end

section
/-! SUPPORT. O6: GCLEAR empties its group, opens or closes it, and makes room for its frames (R81, R147 to R152, R164). -/

namespace Sys2Proof.Machine

/-! ### Changes of the Screed -/

/-- A change of the Screed, of the bytes under way and of the started commands; of the registers, only the counts of unused preloads and of
evictions. -/
structure ScreedOnly (s t : State) : Prop where
  only : t = { s with
    wbuf := t.wbuf, rbuf := t.rbuf, cmds := t.cmds, groups := t.groups, tiles := t.tiles, frames := t.frames, preloads := t.preloads, sts := t.sts }
  kept : FieldsKept s t [scrPreloadUnusedCount, scrEvictionsCount]

theorem ScreedOnly.trans {s t u : State} (h : ScreedOnly s t) (k : ScreedOnly t u) : ScreedOnly s u :=
  ⟨by rw [k.only, h.only], h.kept.trans k.kept⟩

theorem ScreedOnly.readView (s : State) (k c : Nat) : ScreedOnly s (readView s k c) := ⟨rfl, fun _ _ => rfl⟩

theorem ScreedOnly.setGroup (s : State) (g : Nat) (x : Group) : ScreedOnly s (setGroup s g x) := ⟨rfl, fun _ _ => rfl⟩

theorem ScreedOnly.endCmd (s : State) (k a b r : Nat) : ScreedOnly s (endCmd s k a b r) := ⟨rfl, fun _ _ => rfl⟩

theorem ScreedOnly.clearTiles (s : State) (g : Nat) : ScreedOnly s (clearTiles s g) := by
  rw [clearTiles_only]; exact ⟨rfl, fun _ _ => rfl⟩

theorem ScreedOnly.dropPreloads (s : State) (g : Nat) : ScreedOnly s (dropPreloads s g) := by
  constructor
  · rw [dropPreloads_only]
  · exact (FieldsKept.bump { s with preloads := s.preloads.filter (fun p => p.group != g) } scrPreloadUnusedCount _).mono (by simp)

/-- The end of a unit's step that changes the Screed: what it has written is in memory and on its way through the M-ports. -/
theorem ScreedOnly.settle {s u : State} (h : ScreedOnly s u) (hw : s.wbuf = []) (hr : s.rbuf = []) (k c : Nat) :
    settle s (awaitWrites u k c) = { s with
      cmds := u.cmds, groups := u.groups, tiles := u.tiles, frames := u.frames, preloads := u.preloads, sts := u.sts
      mem := memDrain s.mem u.wbuf, mreqs := (awaitWrites u k c).mreqs, mwait := (awaitWrites u k c).mwait } := by
  have hi : irqRises s (awaitWrites u k c) = awaitWrites u k c :=
    (h.kept.congr (awaitWrites_cfg ..) (awaitWrites_sts ..)).irqRises (by decide)
  unfold Machine.settle
  rw [hi, awaitWrites_wbuf, awaitWrites_only]
  generalize (awaitWrites u k c).mreqs = m, (awaitWrites u k c).mwait = q
  conv => lhs; rw [h.only]
  rw [hw, hr]

/-- The same for a step that writes nothing to memory. -/
theorem ScreedOnly.settle_dry {s u : State} (h : ScreedOnly s u) (hw : s.wbuf = []) (hr : s.rbuf = []) (hu : u.wbuf = []) (k c : Nat) :
    Machine.settle s (awaitWrites u k c) = { s with
      cmds := u.cmds, groups := u.groups, tiles := u.tiles, frames := u.frames, preloads := u.preloads, sts := u.sts } := by
  rw [h.settle hw hr, hu, awaitWrites_none k c hu, memDrain_nil, h.only]

/-! ### Frames for an OPEN (R151, R164) -/

/-- A change of tiles and frames, of the bytes under way and of the count of evictions. -/
structure TilesLeave (s t : State) : Prop where
  only : t = { s with wbuf := t.wbuf, tiles := t.tiles, frames := t.frames, sts := t.sts }
  kept : FieldsKept s t [scrEvictionsCount]

theorem TilesLeave.refl (s : State) : TilesLeave s s := ⟨rfl, .refl s _⟩

theorem TilesLeave.trans {s t u : State} (h : TilesLeave s t) (k : TilesLeave t u) : TilesLeave s u :=
  ⟨by rw [k.only, h.only], h.kept.trans k.kept⟩

theorem TilesLeave.screedOnly {s t : State} (h : TilesLeave s t) : ScreedOnly s t :=
  ⟨by rw [h.only], h.kept.mono (by simp)⟩

theorem TilesLeave.undamaged {s t : State} (h : TilesLeave s t) (hd : s.ras.damage = []) : t.ras.damage = [] := by
  rw [h.only]; exact hd

theorem TilesLeave.groups {s t : State} (h : TilesLeave s t) : t.groups = s.groups := by rw [h.only]

theorem TilesLeave.writeHome64 (s : State) (g t : Nat) : TilesLeave s (writeHome64 s g t) := by
  have h : { Machine.writeHome64 s g t with wbuf := [] } = { s with wbuf := [] } :=
    foldl_keeps (fun x : State => { x with wbuf := [] }) _ (fun x p => by rw [store_only]) _ s
  have honly : Machine.writeHome64 s g t = { s with wbuf := (Machine.writeHome64 s g t).wbuf } :=
    congrArg (fun x : State => { x with wbuf := (Machine.writeHome64 s g t).wbuf }) h
  rw [honly]
  exact ⟨rfl, fun _ _ => rfl⟩

theorem TilesLeave.bump (s : State) (n : Nat) : TilesLeave s (bump s scrEvictionsCount n) :=
  ⟨by rw [bump_only, bump_cfg_ro _ _ _ (.inl rfl)], .bump s _ n⟩

theorem TilesLeave.leaveFrame (s : State) (f g t : Nat) (x : TileDir) : TilesLeave s (setTile (dropFrame s f) g t x) := ⟨rfl, fun _ _ => rfl⟩

/-- Without a damaged word a tile that leaves its frame is written home, when dirty, and counted (R164). -/
theorem TilesLeave.evictTile {s : State} (k : Nat) (hd : s.ras.damage = []) : TilesLeave s (evictTile s k) := by
  have hmeet : ∀ b : Bool, (if b then meetTile s k none else (s, false)) = (s, false) := by
    intro b
    cases b
    · rfl
    · exact meetDamage_none _ _ hd
  unfold Machine.evictTile
  dsimp only
  rw [hmeet]
  refine .trans ?_ (.leaveFrame ..)
  split
  · exact (TilesLeave.writeHome64 ..).trans (.bump _ 1)
  · exact .refl s

/-- The victim leaves its frame where the frames do not suffice. -/
def makeWay (s : State) : State :=
  if framesOver s then (match victim s with
    | some k => Machine.evictTile s k
    | none => s) else s

theorem makeRoom_eq (s : State) : makeRoom s = (List.range 512).foldl (fun s _ => makeWay s) s := rfl

theorem makeWay_of_fits {s : State} (h : framesOver s = false) : makeWay s = s := by
  rw [makeWay, h, if_neg Bool.false_ne_true]

theorem TilesLeave.makeWay {s : State} (hd : s.ras.damage = []) : TilesLeave s (makeWay s) := by
  unfold Machine.makeWay
  split
  · split
    · exact .evictTile _ hd
    · exact .refl s
  · exact .refl s

/-- Where the frames suffice no tile makes way. -/
theorem makeRoom_of_fits {s : State} (h : framesOver s = false) : makeRoom s = s := by
  rw [makeRoom_eq]
  induction List.range 512 with
  | nil => rfl
  | cons n l ih => rw [List.foldl_cons, makeWay_of_fits h, ih]

/-- Tiles that make way leave everything else (R151). -/
theorem TilesLeave.makeRoom {s : State} (hd : s.ras.damage = []) : TilesLeave s (makeRoom s) := by
  rw [makeRoom_eq]
  generalize List.range 512 = l
  induction l generalizing s with
  | nil => exact .refl s
  | cons n l ih =>
    have hway := TilesLeave.makeWay hd
    exact hway.trans (ih (hway.undamaged hd))

/-- Whether the frames suffice depends on the live banks, the groups, the tiles and the preloads alone. -/
theorem framesOver_congr {s t : State} (hc : t.cfg = s.cfg) (hg : t.groups = s.groups) (ht : t.tiles = s.tiles) (hp : t.preloads = s.preloads) :
    framesOver t = framesOver s := by
  unfold framesOver liveFrames pinnedFrames residentCached heldFrames cachedKey groupOf
  rw [hg, ht, hp, rd_congr_rw (.inl rfl) hc]

/-! ### A group emptied (R147, R148, R150) -/

/-- The group `g` without tiles and preloads, its entry replaced by `x`. -/
def cleared (s : State) (g : Nat) (x : Group) : State := setGroup (dropPreloads (clearTiles s g) g) g x

/-- From `s` to `u` group `g` has been cleared: nothing but the Screed has changed, and no other group with its tiles and preloads. -/
structure Clears (s u : State) (g : Nat) : Prop where
  screed : ScreedOnly s u
  wbuf : u.wbuf = s.wbuf
  cmds : u.cmds = s.cmds
  tiles : u.tiles = s.tiles.filter (fun p => p.1 / 2 ^ 14 != g)
  preloads : u.preloads = s.preloads.filter (fun p => p.group != g)
  groups : ∀ h, h ≠ g → groupOf u h = groupOf s h

theorem clears_cleared (s : State) (g : Nat) (x : Group) : Clears s (cleared s g x) g where
  screed := ((ScreedOnly.clearTiles s g).trans (.dropPreloads _ g)).trans (.setGroup _ g x)
  wbuf := by simp [cleared]
  cmds := by simp [cleared]
  tiles := by rw [cleared, setGroup_tiles, dropPreloads_only, clearTiles_only]
  preloads := by rw [cleared, setGroup_preloads, dropPreloads_only, clearTiles_only]
  groups := fun h hne => by rw [cleared, groupOf_setGroup_ne _ _ hne, groupOf, dropPreloads_groups, clearTiles_groups]; rfl

/-- What the group's entry was before does not matter. -/
theorem Clears.of_setGroup {s u : State} {g : Nat} {x : Group} (h : Clears (setGroup s g x) u g) : Clears s u g where
  screed := (ScreedOnly.setGroup s g x).trans h.screed
  wbuf := h.wbuf
  cmds := h.cmds
  tiles := h.tiles
  preloads := h.preloads
  groups := fun k hne => (h.groups k hne).trans (groupOf_setGroup_ne s x hne)

theorem Clears.of_readView {s u : State} {g k c : Nat} (h : Clears (readView s k c) u g) : Clears s u g where
  screed := (ScreedOnly.readView s k c).trans h.screed
  wbuf := h.wbuf
  cmds := h.cmds
  tiles := h.tiles
  preloads := h.preloads
  groups := h.groups

theorem groupOf_cleared_self (s : State) (g : Nat) (x : Group) : groupOf (cleared s g x) g = x := groupOf_setGroup_self ..

/-- A group replaced by `x` and emptied. -/
theorem emptyGroup_setGroup (s : State) (g : Nat) (x : Group) :
    emptyGroup (setGroup s g x) g false = cleared (setGroup s g x) g (emptiedGroup false x) := by
  have hx : groupOf (dropPreloads (clearTiles (setGroup s g x) g) g) g = x := by
    rw [groupOf, dropPreloads_groups, clearTiles_groups]
    exact groupOf_setGroup_self s g x
  unfold emptyGroup
  dsimp only
  rw [hx, cleared]

theorem groupOf_emptyGroup_setGroup (s : State) (g : Nat) (x : Group) :
    groupOf (emptyGroup (setGroup s g x) g false) g = emptiedGroup false x := by
  rw [emptyGroup_setGroup, groupOf_cleared_self]

theorem clears_emptyGroup (s : State) (g : Nat) (x : Group) (k n : Nat) :
    Clears s (emptyGroup (setGroup (readView s k n) g x) g false) g := by
  rw [emptyGroup_setGroup]
  exact (clears_cleared ..).of_setGroup.of_readView

/-- The flags of a group are clear, and its GEN is the one after that of `x` (R147, R150). -/
def Blank (x y : Group) : Prop :=
  y.gen = (x.gen + 1) % 256 ∧ y.poison = false ∧ y.longsum = false ∧ y.surrogate = false ∧ y.reduced = false ∧ y.torn = 0

/-- A group with the GEN of `x` is blank once it has been emptied. -/
theorem blank_emptiedGroup {x y : Group} (h : y.gen = x.gen) : Blank x (emptiedGroup false y) :=
  ⟨by rw [← h]; rfl, rfl, rfl, rfl, rfl, rfl⟩

/-- What a CLOSE leaves of the group `x` (R148, R150). -/
def closedGroup (x : Group) : Group := { groupFree with gen := (x.gen + 1) % 256 }

theorem blank_closedGroup (x : Group) : Blank x (closedGroup x) := ⟨rfl, rfl, rfl, rfl, rfl, rfl⟩

/-! ### The group of an OPEN (R81, R147, R148, R151) -/

/-- The group `x` with the parameters that the OPEN sets, the home format latched at its start among them. -/
def openedBy (c : Cmd) (x : Group) : Group := openedGroup (tget 0 c.aux 0) c.desc x

/-- The state with the group of the OPEN emptied and its parameters set, before any other tile makes way. -/
def opened (s : State) (c : Cmd) : State :=
  emptyGroup (setGroup s (gclearGroup c.desc) (openedBy c (groupOf s (gclearGroup c.desc)))) (gclearGroup c.desc) false

theorem openRun_eq (s : State) (c : Cmd) : openRun s c = makeRoom (opened s c) := rfl

theorem groupOf_opened (s : State) (c : Cmd) :
    groupOf (opened s c) (gclearGroup c.desc) = emptiedGroup false (openedBy c (groupOf s (gclearGroup c.desc))) :=
  groupOf_emptyGroup_setGroup ..

theorem clears_opened (s : State) (c : Cmd) (k n : Nat) : Clears s (opened (readView s k n) c) (gclearGroup c.desc) :=
  clears_emptyGroup ..

/-- What a unit has read does not bear on the frames. -/
theorem framesOver_opened_readView (s : State) (c : Cmd) (k n : Nat) : framesOver (opened (readView s k n) c) = framesOver (opened s c) := by
  unfold opened
  apply framesOver_congr
  · rw [emptyGroup_cfg, emptyGroup_cfg]; rfl
  · rw [emptyGroup_groups, emptyGroup_groups]; rfl
  · rw [emptyGroup_tiles, emptyGroup_tiles]; rfl
  · rw [emptyGroup_preloads, emptyGroup_preloads]; rfl

/-- Whether the OPEN finds room, as a status. -/
def openRoom (s : State) (c : Cmd) : Nat :=
  roomStatus s (gclearGroup c.desc) { openedBy c (groupOf s (gclearGroup c.desc)) with state := .open }

theorem exec_gclearOpen (r : CmdRef) (s : State) : exec (.gclearOpen r) s = runUnit s (refKey r)
    (fun c => isOp 0x07 c && gclearMode c.desc == 0 && (openRoom s c != stOK || !(framesOver (openRun s c))))
    (fun v c => if openRoom s c = stOK then endCmd (openRun v c) c.key stOK 0 0 else endCmd v c.key (openRoom s c) 0 0) := rfl

/-! ### The end of a GCLEAR -/

/-- The state at the end of the step in which a unit has done `u` and ends its command. -/
def unitEnd (s u : State) (c : Cmd) (status : Nat) : State := settle s (awaitWrites (endCmd u c.key status 0 0) c.key 7)

section
variable {r : CmdRef} {s u : State} {c : Cmd} (h : Ready s (refKey r) c)
include h

theorem Ready.unit_ends {ok : Cmd → Bool} {f : State → Cmd → State} {status : Nat} (hok : ok c = true)
    (hf : f (readView s c.key 7) c = endCmd u c.key status 0 0) : runUnit s (refKey r) ok f = .next (unitEnd s u c status) := by
  rw [runUnit_ready f h hok, hf, ← findCmd_key h.1, unitEnd]

theorem Ready.unit_waits {ok : Cmd → Bool} (f : State → Cmd → State) (hok : ok c = false) : runUnit s (refKey r) ok f = .next s := by
  obtain ⟨hfind, _⟩ := h
  simp [runUnit, hfind, hok]

theorem unitEnd_ended (hc : u.cmds = s.cmds) (status : Nat) : Ended s (unitEnd s u c status) c status 0 0 :=
  ended_congr (ended_endCmd h.1 hc status 0 0) (by rw [unitEnd, settle_cmds, awaitWrites_cmds])

/-- With the Screed changed nothing else moves but memory, by what the unit wrote, and the requests for these writes. -/
theorem unitEnd_screed (hu : ScreedOnly s u) (status : Nat) : unitEnd s u c status = { s with
    cmds := (endCmd u c.key status 0 0).cmds, groups := u.groups, tiles := u.tiles, frames := u.frames, preloads := u.preloads, sts := u.sts
    mem := (unitEnd s u c status).mem, mreqs := (unitEnd s u c status).mreqs, mwait := (unitEnd s u c status).mwait } := by
  obtain ⟨_, _, _, _, _, hw, hr⟩ := h
  have hend := (hu.trans (.endCmd u c.key status 0 0)).settle hw hr c.key 7
  rw [unitEnd, hend]
  rfl

theorem unitEnd_dry (hu : ScreedOnly s u) (hw : u.wbuf = s.wbuf) (status : Nat) : unitEnd s u c status = { s with
    cmds := (endCmd u c.key status 0 0).cmds, groups := u.groups, tiles := u.tiles, frames := u.frames, preloads := u.preloads, sts := u.sts } := by
  obtain ⟨_, _, _, _, _, hws, hr⟩ := h
  exact (hu.trans (.endCmd u c.key status 0 0)).settle_dry hws hr (hw.trans hws) c.key 7

theorem unitEnd_statusKept (hu : ScreedOnly s u) (status : Nat) : StatusKept s (unitEnd s u c status) [0x09] := by
  have hs := unitEnd_screed h hu status
  exact (hu.kept.congr (by rw [hs, hu.only]) (by rw [hs])).statusKept (by decide)

/-- A GCLEAR that finds no group, or no room for one, ends and changes nothing. -/
theorem unitEnd_nothing (status : Nat) : Ended s (unitEnd s (readView s c.key 7) c status) c status 0 0 ∧
    unitEnd s (readView s c.key 7) c status = { s with cmds := (unitEnd s (readView s c.key 7) c status).cmds } :=
  ⟨unitEnd_ended (u := readView s c.key 7) h rfl status, by rw [unitEnd_dry h (.readView s c.key 7) rfl]; rfl⟩

/-- A GCLEAR that has cleared its group ends. -/
theorem Clears.ends {g : Nat} (hu : Clears s u g) (hb : Blank (groupOf s g) (groupOf u g)) :
    Ended s (unitEnd s u c stOK) c stOK 0 0 ∧ EmptiedOnly s (unitEnd s u c stOK) g ∧ groupOf (unitEnd s u c stOK) g = groupOf u g ∧
      StatusKept s (unitEnd s u c stOK) [0x09] ∧ unitEnd s u c stOK = { s with
        cmds := (unitEnd s u c stOK).cmds, groups := (unitEnd s u c stOK).groups, tiles := (unitEnd s u c stOK).tiles
        frames := (unitEnd s u c stOK).frames, preloads := (unitEnd s u c stOK).preloads, sts := (unitEnd s u c stOK).sts } := by
  have hdry := unitEnd_dry h hu.screed hu.wbuf stOK
  have hgroup : ∀ k, groupOf (unitEnd s u c stOK) k = groupOf u k := fun k => by rw [hdry]; rfl
  obtain ⟨hown, hothers⟩ := tileOf_filtered (t := unitEnd s u c stOK) (by rw [hdry]; exact hu.tiles)
  refine ⟨unitEnd_ended h hu.cmds stOK, ⟨hown, hothers, fun k hne => (hgroup k).trans (hu.groups k hne), ?_, ?_⟩, hgroup g,
    unitEnd_statusKept h hu.screed stOK, ?_⟩
  · rw [hdry]; exact hu.preloads
  · rw [hgroup]; exact hb
  · rw [hdry]

/-! ### GCLEAR CLEAR and CLOSE (R148, R150, R152) -/

section
variable (hop : dOp c.desc = 0x07)
include hop

theorem gclearClear_clears (hmode : gclearMode c.desc = 1) (hx : (groupOf s (gclearGroup c.desc)).state ≠ .free) :
    exec (.gclearClear r) s = .next (unitEnd s (emptyGroup (setGroup (readView s c.key 7) (gclearGroup c.desc)
      { groupOf s (gclearGroup c.desc) with step := dStep c.desc }) (gclearGroup c.desc) false) c stOK) :=
  h.unit_ends (by simp [isOp, hop, hmode]) (if_neg (mt beq_iff_eq.mp hx))

theorem gclearClose_clears (hmode : gclearMode c.desc = 2) (hx : (groupOf s (gclearGroup c.desc)).state ≠ .free) :
    exec (.gclearClose r) s = .next (unitEnd s (cleared (readView s c.key 7) (gclearGroup c.desc)
      (closedGroup (groupOf s (gclearGroup c.desc)))) c stOK) :=
  h.unit_ends (by simp [isOp, hop, hmode]) (if_neg (mt beq_iff_eq.mp hx))

theorem gclearClear_noGroup (hmode : gclearMode c.desc = 1) (hx : (groupOf s (gclearGroup c.desc)).state = .free) :
    exec (.gclearClear r) s = .next (unitEnd s (readView s c.key 7) c stNoGroup) :=
  h.unit_ends (by simp [isOp, hop, hmode]) (if_pos (beq_iff_eq.mpr hx))

theorem gclearClose_noGroup (hmode : gclearMode c.desc = 2) (hx : (groupOf s (gclearGroup c.desc)).state = .free) :
    exec (.gclearClose r) s = .next (unitEnd s (readView s c.key 7) c stNoGroup) :=
  h.unit_ends (by simp [isOp, hop, hmode]) (if_pos (beq_iff_eq.mpr hx))

/-! ### GCLEAR OPEN (R81, R148, R151) -/

theorem gclearOpen_opens (hmode : gclearMode c.desc = 0) (hroom : openRoom s c = stOK) (hfits : framesOver (openRun s c) = false) :
    exec (.gclearOpen r) s = .next (unitEnd s (openRun (readView s c.key 7) c) c stOK) := by
  rw [exec_gclearOpen]
  exact h.unit_ends (by simp [isOp, hop, hmode, hfits]) (if_pos hroom)

theorem gclearOpen_refused (hmode : gclearMode c.desc = 0) (hroom : openRoom s c ≠ stOK) :
    exec (.gclearOpen r) s = .next (unitEnd s (readView s c.key 7) c (openRoom s c)) := by
  rw [exec_gclearOpen]
  exact h.unit_ends (by simp [isOp, hop, hmode, hroom]) (if_neg hroom)

end

/-- While tiles that would have to make way are held the OPEN waits (R151). -/
theorem gclearOpen_waits (hroom : openRoom s c = stOK) (hover : framesOver (openRun s c) = true) : exec (.gclearOpen r) s = .next s := by
  rw [exec_gclearOpen]
  exact h.unit_waits _ (by simp [hroom, hover])

/-- An OPEN whose frames suffice clears its group and touches no other tile. -/
theorem gclearOpen_fits (hop : dOp c.desc = 0x07) (hmode : gclearMode c.desc = 0) (hroom : openRoom s c = stOK)
    (hfits : framesOver (opened s c) = false) :
    exec (.gclearOpen r) s = .next (unitEnd s (opened (readView s c.key 7) c) c stOK) := by
  have hview : framesOver (opened (readView s c.key 7) c) = false := (framesOver_opened_readView s c c.key 7).trans hfits
  rw [gclearOpen_opens h hop hmode hroom (by rw [openRun_eq, makeRoom_of_fits hfits]; exact hfits), openRun_eq, makeRoom_of_fits hview]

/-- A GCLEAR that has cleared its group to `v` and made tiles leave ends. -/
theorem TilesLeave.ends {g : Nat} {v : State} (hv : Clears s v g) (hu : TilesLeave v u) : let t := unitEnd s u c stOK
    Ended s t c stOK 0 0 ∧ t.groups = v.groups ∧ StatusKept s t [0x09] ∧ t = { s with
      cmds := t.cmds, groups := t.groups, tiles := t.tiles, frames := t.frames, preloads := t.preloads, mem := t.mem
      mreqs := t.mreqs, sts := t.sts, mwait := t.mwait } := by
  have hscreed := hv.screed.trans hu.screedOnly
  have hend := unitEnd_screed h hscreed stOK
  refine ⟨unitEnd_ended h (by rw [hu.only]; exact hv.cmds) stOK, ?_, unitEnd_statusKept h hscreed stOK, by rw [hend]⟩
  rw [hend]; exact hu.groups

/-- The tiles that make way for an OPEN (R151). -/
theorem openRun_leaves : TilesLeave (opened (readView s c.key 7) c) (openRun (readView s c.key 7) c) := by
  obtain ⟨_, _, _, hdamage, _⟩ := h
  exact .makeRoom (by rw [(clears_opened s c c.key 7).screed.only]; exact hdamage)

end

/-- Settles O6: each mode of GCLEAR comes to one state of the unit's end, with the group cleared, opened with tiles made way, or nothing done. -/
theorem gclearEmptiesTheGroup : Obligations.GclearEmptiesTheGroup := by
  unfold Obligations.GclearEmptiesTheGroup
  intro r s c h hop g x gs room takes
  have hclears := clears_opened s c c.key 7
  have hgroup : groupOf (opened (readView s c.key 7) c) g = emptiedGroup false gs := groupOf_opened ..
  have htakes : ∀ t : State, groupOf t g = emptiedGroup false gs → takes t := fun t ht => by
    dsimp only [takes]
    rw [ht]
    exact ⟨rfl, rfl, rfl, rfl, rfl, rfl, rfl, rfl⟩
  refine ⟨fun hmode hx => ?_, fun hmode hx => ?_, fun hx => ⟨fun hmode => ?_, fun hmode => ?_⟩,
    fun hmode hroom => ⟨fun hfits => ?_, fun hfits => ?_, gclearOpen_waits h hroom⟩, fun hmode hroom => ?_⟩
  · have hgroup := groupOf_emptyGroup_setGroup (readView s c.key 7) g { x with step := dStep c.desc }
    obtain ⟨hended, hemptied, hg, hkept, hframe⟩ := (clears_emptyGroup s g { x with step := dStep c.desc } c.key 7).ends h
      (by rw [hgroup]; exact blank_emptiedGroup rfl)
    exact ⟨_, gclearClear_clears h hop hmode hx, hended, hemptied, hg.trans hgroup, hkept, hframe⟩
  · have hgroup := groupOf_cleared_self (readView s c.key 7) g (closedGroup x)
    obtain ⟨hended, hemptied, hg, hkept, hframe⟩ := (clears_cleared (readView s c.key 7) g (closedGroup x)).of_readView.ends h
      (by rw [hgroup]; exact blank_closedGroup x)
    exact ⟨_, gclearClose_clears h hop hmode hx, hended, hemptied, by rw [hg, hgroup]; rfl, hkept, hframe⟩
  · exact ⟨_, gclearClear_noGroup h hop hmode hx, unitEnd_nothing h stNoGroup⟩
  · exact ⟨_, gclearClose_noGroup h hop hmode hx, unitEnd_nothing h stNoGroup⟩
  · obtain ⟨hended, hemptied, hg, hkept, hframe⟩ := hclears.ends h (by rw [hgroup]; exact blank_emptiedGroup rfl)
    exact ⟨_, gclearOpen_fits h hop hmode hroom hfits, hended, hemptied, htakes _ (hg.trans hgroup), hkept, hframe⟩
  · obtain ⟨hended, hgroups, hkept, hframe⟩ := (openRun_leaves h).ends h hclears
    have hg : ∀ k, groupOf (unitEnd s (openRun (readView s c.key 7) c) c stOK) k = groupOf (opened (readView s c.key 7) c) k :=
      fun k => by rw [groupOf, hgroups, groupOf]
    exact ⟨_, gclearOpen_opens h hop hmode hroom hfits, hended, htakes _ ((hg g).trans hgroup),
      fun k hne => (hg k).trans (hclears.groups k hne), hkept, hframe⟩
  · exact ⟨_, gclearOpen_refused h hop hmode hroom, unitEnd_nothing h _⟩

end Sys2Proof.Machine
end

section
/-! SUPPORT. O58: what an M-port response does for what its request was for, and to the port's credits (R196, R197, R214, R317, R385, R386,
R389). -/

namespace Sys2Proof.Machine

/-! ### Credits (R386) -/

@[simp] theorem pump_cmds (s : State) : (pump s).cmds = s.cmds := by rw [pump_only]
@[simp] theorem pump_staged (s : State) : (pump s).staged = s.staged := by rw [pump_only]
@[simp] theorem pump_wbuf (s : State) : (pump s).wbuf = s.wbuf := by rw [pump_only]
@[simp] theorem pump_handoffs (s : State) : (pump s).handoffs = s.handoffs := by rw [pump_only]

@[simp] theorem rd_pump (s : State) (f : Field) : rd (pump s) f = rd s f := rd_congr f (by rw [pump_only]) (by rw [pump_only])

@[simp] theorem findCmd_pump (s : State) (k : Nat) : findCmd (pump s) k = findCmd s k := findCmd_congr (pump_cmds s) k

theorem FieldsKept.pump {s t : State} {l : List Field} (h : FieldsKept s t l) : FieldsKept s (pump t) l :=
  h.congr (by rw [pump_only]) (by rw [pump_only])

theorem pump_idle {s : State} (h : s.mwait = []) : pump s = s := by
  have hs : pump s = { s with mwait := [] } := by rw [pump, h]; rfl
  rw [hs, ← h]

/-- The state in which a request is outstanding no longer. -/
def withoutRequest (s : State) (r : MReq) : State := { s with mreqs := s.mreqs.erase r }

/-- The request is outstanding no longer, and where no other waits nothing else moves among the requests. -/
def RequestEnds (s t : State) (r : MReq) : Prop := s.mwait = [] → t.mreqs = s.mreqs.erase r ∧ t.mwait = []

theorem requestEnds_settle_pump {s u : State} {r : MReq} (hm : u.mreqs = s.mreqs.erase r) (hw : u.mwait = s.mwait) :
    RequestEnds s (settle s (pump u)) r := fun h => by
  rw [pump_idle (hw.trans h), settle_mreqs, settle_mwait]
  exact ⟨hm, hw.trans h⟩

/-- The end of a step that, from `x`, writes what the engine sets and lets requests out. -/
theorem settle_pump_stsTrace {s x u : State} (h : StsTrace x u) (hp : x.pending = s.pending) (hm : x.mem = s.mem) (hw : x.wbuf = [])
    (hr : x.rbuf = []) : let t := settle s (pump u)
    t = { x with sts := t.sts, trace := t.trace, cport := t.cport, mreqs := t.mreqs, mwait := t.mwait } := by
  obtain ⟨a, b, rfl⟩ : ∃ a b, u = { x with sts := a, trace := b } := ⟨_, _, h⟩
  dsimp only
  rw [settle_only, pump_only]
  simp [hp, hm, hw, hr]

/-- The end of a step that writes no register and lets requests out. -/
theorem settle_pump_still {s u : State} (hc : u.cfg = s.cfg) (hs : u.sts = s.sts) (hp : u.pending = s.pending) (hr : u.rbuf = []) :
    settle s (pump u) = { pump u with mem := memDrain s.mem u.wbuf, wbuf := [] } := by
  rw [← pump_wbuf u]
  exact settle_silent (irqRises_still (by rw [pump_only, hc]) (by rw [pump_only, hs])) (by rw [pump_only, hp]) (by rw [pump_only, hr])

/-! ### A response and its request (R386, R389) -/

/-- The engine takes responses, and one from the port with the tag is to the request `r`. -/
structure Awaits (s : State) (port : BitVec 4) (tag : BitVec 10) (r : MReq) : Prop where
  awake : awake s = true
  clock : portClock s = true
  hit : s.mreqs.find? (fun r => r.port == port.toNat && r.tag == tag.toNat) = some r
  wbuf : s.wbuf = []
  rbuf : s.rbuf = []

section
variable {port : BitVec 4} {tag : BitVec 10} (st : MStatus) (poison : BitVec 16) (data : List Byte) {s : State} {r : MReq}

/-- Without the port clock, or asleep, no response is taken. -/
theorem mportResponse_asleep (h : Machine.awake s = false ∨ portClock s = false) :
    exec (.mportResponse port tag st poison data) s = .next s := by
  change execMportResponse port tag st poison data s = _
  rcases h with h | h <;> simp [execMportResponse, h]

theorem mportResponse_unknown (ha : Machine.awake s = true) (hc : portClock s = true)
    (hit : s.mreqs.find? (fun r => r.port == port.toNat && r.tag == tag.toNat) = none) (hw : s.wbuf = []) (hr : s.rbuf = []) :
    ∃ t, exec (.mportResponse port tag st poison data) s = .next t ∧ bitOf (rd t (hdrEvt 0x00)) 11 = true ∧
      FieldsKept s t (eventFields 0x00) ∧ t = { s with sts := t.sts, trace := t.trace, cport := t.cport } := by
  have hexec : exec (.mportResponse port tag st poison data) s = .next (settle s (setEvt s evPortProto)) := by
    change execMportResponse port tag st poison data s = _
    simp [execMportResponse, ha, hc, hit]
  refine ⟨_, hexec, ?_, (FieldsKept.setEvt s evPortProto).settle, settle_stsTrace (.setEvt s _) rfl rfl hw hr⟩
  rw [rd_settle]; exact setEvt_sets (e := evPortProto) s (by decide)

variable (h : Awaits s port tag r)
include h

theorem Awaits.responds : exec (.mportResponse port tag st poison data) s = .next (settle s (respond s r st poison.toNat data)) := by
  change execMportResponse port tag st poison data s = _
  simp [execMportResponse, h.awake, h.clock, h.hit]

/-- An OK or ERROR response that comes too late ends its request alone (R403). -/
theorem Awaits.discards (hst : st = .ok ∨ st = .error) (hd : discarded s r = true) :
    exec (.mportResponse port tag st poison data) s = .next (settle s (pump (withoutRequest s r))) := by
  rw [h.responds]
  rcases hst with rfl | rfl <;> simp [respond, responseBreaks, setEvtIf, hd, withoutRequest]

theorem Awaits.succeeds (hd : discarded s r = false) :
    exec (.mportResponse port tag .ok poison data) s = .next (settle s (pump (responseOk (withoutRequest s r) r data))) := by
  rw [h.responds]
  simp [respond, responseBreaks, responseKind, setEvtIf, hd, withoutRequest]

/-- An ERROR response to a read that is not the command processor's own is counted, and its part fails (R196, R197). -/
theorem Awaits.readFails (hd : discarded s r = false) (hw : r.write = false) (ho : requestOwn r = false) :
    exec (.mportResponse port tag .error poison data) s =
      .next (settle s (pump (responseBad (countError (withoutRequest s r) r r.addr) r))) := by
  rw [h.responds]
  simp [respond, responseBreaks, responseKind, setEvtIf, hd, withoutRequest, failAddr, logError, hw, ho]

end

/-! ### Reads of commands (R196, R386) -/

/-- The byte of a response at an address; bytes it does not hold are 0. -/
def responseByte (r : MReq) (data : List Byte) (a : Nat) : Byte := (data[a - r.addr]?).getD 0#8

theorem mem_responseCells {r : MReq} {data : List Byte} {p : Host.Cell} : p ∈ responseCells r data ↔
    (∃ x ∈ r.strobes, x.1 ≤ p.1 ∧ p.1 < x.1 + x.2) ∧ p.2 = responseByte r data p.1 := by
  simp only [responseCells, List.mem_flatMap, List.mem_map, List.mem_range]
  constructor
  · rintro ⟨x, hx, i, hi, rfl⟩
    exact ⟨⟨x, hx, by dsimp only; omega⟩, rfl⟩
  · rintro ⟨⟨x, hx, hlo, hhi⟩, hv⟩
    refine ⟨x, hx, p.1 - x.1, by omega, ?_⟩
    rw [show x.1 + (p.1 - x.1) = p.1 by omega]
    exact Prod.ext rfl hv.symm

/-- Where every cell of an address holds one value and there is such a cell, that is what is found. -/
theorem find_cell {l : List Host.Cell} {a : Nat} {v : Byte} (hv : ∀ p ∈ l, p.1 = a → p.2 = v) (he : ∃ p ∈ l, p.1 = a) :
    l.find? (fun p => p.1 == a) = some (a, v) := by
  obtain ⟨q, hq⟩ := Option.isSome_iff_exists.mp (List.find?_isSome (p := fun p : Host.Cell => p.1 == a).mpr (by simpa using he))
  have hqa : q.1 = a := by simpa using List.find?_some hq
  rw [hq, ← hqa, ← hv q (List.mem_of_find?_eq_some hq) hqa]

theorem find_responseCells {r : MReq} (data : List Byte) {a : Nat} (ha : ∃ x ∈ r.strobes, x.1 ≤ a ∧ a < x.1 + x.2) :
    (responseCells r data).find? (fun p => p.1 == a) = some (a, responseByte r data a) :=
  find_cell (fun p hp e => by rw [(mem_responseCells.mp hp).2, e]) ⟨(a, responseByte r data a), mem_responseCells.mpr ⟨ha, rfl⟩, rfl⟩

/-- Cells put into memory one after the other are the newest bytes written. -/
theorem foldl_putByte (l : List Host.Cell) (s : State) :
    l.foldl (fun s p => s.putByte p.1 p.2) s = { s with wbuf := l.reverse ++ s.wbuf } := by
  induction l generalizing s with
  | nil => rfl
  | cons p l ih => rw [List.foldl_cons, ih]; simp [State.putByte]

theorem holdBytes_only (s : State) (key core part : Nat) (cells : List Host.Cell) :
    holdBytes s key core part cells = { s with staged := (holdBytes s key core part cells).staged } := by
  unfold holdBytes; split <;> rfl

/-- Bytes that join what a unit holds are the first that it reads, where it holds no other part (R186). -/
theorem rbuf_readView_holdBytes {s : State} {key core part : Nat} (cells : List Host.Cell)
    (h : ∀ e ∈ s.staged, e.key = key → e.core = core → e.part = part) :
    ∃ l, (readView (holdBytes s key core part cells) key core).rbuf = cells ++ l := by
  rw [readView_rbuf]
  cases hf : s.staged.find? (fun e => e.key == key && e.core == core && e.part == part) with
  | none =>
    have hnone : s.staged.filter (fun e => e.key == key && e.core == core) = [] := by
      rw [List.filter_eq_nil_iff]
      intro e he hkc
      obtain ⟨hk, hc⟩ : e.key = key ∧ e.core = core := by simpa using hkc
      exact List.find?_eq_none.mp hf e he (by simp [hk, hc, h e he hk hc])
    exact ⟨[], by simp [holdBytes, hf, List.filter_append, hnone]⟩
  | some e =>
    let join : Staged → Staged := fun e =>
      if e.key == key && e.core == core && e.part == part then { e with cells := cells ++ e.cells } else e
    have hjoin : (holdBytes s key core part cells).staged = s.staged.map join := by rw [holdBytes, hf]
    have hsame : (fun e : Staged => e.key == key && e.core == core) ∘ join = fun e => e.key == key && e.core == core := by
      funext e
      simp only [Function.comp_apply, join]
      split <;> rfl
    have hpart : (e.key = key ∧ e.core = core) ∧ e.part = part := by simpa using List.find?_some hf
    have hmem : e ∈ s.staged.filter (fun e => e.key == key && e.core == core) :=
      List.mem_filter.mpr ⟨List.mem_of_find?_eq_some hf, by simp [hpart]⟩
    obtain ⟨x, rest, hx⟩ := List.exists_cons_of_ne_nil (List.ne_nil_of_mem hmem)
    obtain ⟨hxs, hxkc⟩ := List.mem_filter.mp (hx ▸ List.mem_cons_self : x ∈ s.staged.filter (fun e => e.key == key && e.core == core))
    obtain ⟨hxk, hxc⟩ : x.key = key ∧ x.core = core := by simpa using hxkc
    refine ⟨x.cells ++ (rest.map join).flatMap (·.cells), ?_⟩
    rw [hjoin, List.filter_map, hsame, hx, List.map_cons, List.flatMap_cons, ← List.append_assoc]
    simp [join, hxk, hxc, h x hxs hxk hxc]

/-- The state with the bytes of a good response in memory and with the unit of the command that has asked for them (log 21). -/
def readArrived (s : State) (r : MReq) (data : List Byte) (key core part : Nat) : State :=
  holdBytes { withoutRequest s r with wbuf := (responseCells r data).reverse ++ s.wbuf } key core part (responseCells r data)

theorem readArrived_only (s : State) (r : MReq) (data : List Byte) (key core part : Nat) : readArrived s r data key core part =
    { withoutRequest s r with
      wbuf := (responseCells r data).reverse ++ s.wbuf, staged := (readArrived s r data key core part).staged } := holdBytes_only ..

theorem responseOk_read {s : State} {r : MReq} (data : List Byte) {key core part : Nat} {c : Cmd} (hwhy : r.why = .cmdRead key core part)
    (hc : findCmd s key = some c) (hprod : isProduct c.desc = false) :
    responseOk (withoutRequest s r) r data = readArrived s r data key core part := by
  have hcw : findCmd (withoutRequest s r) key = some c := hc
  let x : State := { withoutRequest s r with wbuf := (responseCells r data).reverse ++ s.wbuf }
  have hcx : findCmd x key = some c := hc
  have hcu : findCmd (readArrived s r data key core part) key = some c :=
    (findCmd_congr (s := s) (by rw [readArrived_only]; rfl) key).trans hc
  have hpart : partArrived x key core part (responseCells r data) = readArrived s r data key core part := by
    simp [partArrived, hcx, hprod, readArrived, x]
  have hrows : rowsArrived (readArrived s r data key core part) key = readArrived s r data key core part := by
    simp [rowsArrived, hcu, hprod]
  have hput : (responseCells r data).foldl (fun s p => s.putByte p.1 p.2) (withoutRequest s r) = x := foldl_putByte ..
  simp only [responseOk, hwhy, hcw, Option.isSome_some, if_true, hput, hpart, hrows]

/-- At the end of the step memory holds the bytes of the response. -/
theorem byte_readArrived {s : State} {r : MReq} (data : List Byte) (key core part : Nat) (hw : s.wbuf = []) (a : Nat) :
    (settle s (pump (readArrived s r data key core part))).byte a =
      State.byte { s with wbuf := (responseCells r data).reverse, rbuf := [] } a := by
  rw [byte_settle, pump_wbuf, readArrived_only]
  simp [hw]

theorem readArrived_settles {s : State} {r : MReq} (data : List Byte) (key core part : Nat) (hw : s.wbuf = []) (hr : s.rbuf = []) :
    let t := settle s (pump (readArrived s r data key core part))
    t = { s with mem := t.mem, mreqs := t.mreqs, staged := t.staged, mwait := t.mwait } := by
  have hend : settle s (pump (readArrived s r data key core part)) = { pump (readArrived s r data key core part) with
      mem := memDrain s.mem (readArrived s r data key core part).wbuf, wbuf := [] } := by
    have honly := readArrived_only s r data key core part
    exact settle_pump_still (by rw [honly]; rfl) (by rw [honly]; rfl) (by rw [honly]; rfl) (by rw [honly]; exact hr)
  dsimp only
  rw [hend, pump_only, readArrived_only]
  simp [withoutRequest, hw]

/-- A failed read leaves the part of the command with an M-port error, a command that shares no row window being the only one (R114, R196). -/
theorem readFailed_errs {s : State} {key : Nat} (core : Nat) {c : Cmd} (hc : findCmd s key = some c) (hs : c.phase = .started)
    (hp : c.pack = []) : ∃ f : Cmd → Cmd, readFailed s key core = modCmd s key f ∧ (∀ e, (f e).key = e.key) ∧
      f c = noteErr c core stMportError := by
  have hkey : c.key = key := findCmd_key hc
  cases hprod : isProduct c.desc
  · refine ⟨fun e => if takesErr e then noteErr e core stMportError else e, by simp [readFailed, hc, hprod], fun e => ?_, ?_⟩
    · dsimp only; split <;> rfl
    · simp [takesErr, hs]
  · refine ⟨fun e => if e.phase == .started then noteErr e core stMportError else e, ?_, fun e => ?_, ?_⟩
    · simp [readFailed, hc, hprod, failPart, mates, hp, hkey]
    · dsimp only; split <;> rfl
    · simp [hs]

/-- The fields of MPORT_ERR and ERR_ADDR (R197). -/
def mportErrFields : List Field := [trwMportErrPort, trwMportErrLoader, trwMportErrWrite, trwErrAddrAddr, trwMportErrCount]

/-- The registers of an error before it is counted: where it was the first since the last clear, they name it (R196). -/
def errNamed (s : State) (r : MReq) (addr : Nat) : State :=
  if rd s trwMportErrCount = 0 then
    wr (wr (wr (wr s trwMportErrPort r.port) trwMportErrLoader (requestLoader r)) trwMportErrWrite (if r.write then 1 else 0)) trwErrAddrAddr addr
  else s

theorem countError_eq (s : State) (r : MReq) (addr : Nat) :
    countError s r addr = setEvt (bump (errNamed s r addr) trwMportErrCount 1) evMportErr := rfl

theorem errNamed_kept (s : State) (r : MReq) (addr : Nat) :
    FieldsKept s (errNamed s r addr) [trwMportErrPort, trwMportErrLoader, trwMportErrWrite, trwErrAddrAddr] := by
  unfold errNamed
  split
  · exact (((FieldsKept.wr s _ _).mono (by simp)).trans ((FieldsKept.wr _ _ _).mono (by simp))).trans
      (((FieldsKept.wr _ _ _).mono (by simp)).trans ((FieldsKept.wr _ _ _).mono (by simp)))
  · exact .refl s _

theorem StsTrace.countError (s : State) (r : MReq) (addr : Nat) : StsTrace s (countError s r addr) := by
  rw [countError_eq]
  refine (StsTrace.trans ?_ (.bump _ _ 1 (.inl rfl))).trans (.setEvt _ _)
  unfold errNamed
  split
  · exact ((StsTrace.wr s _ _ (.inl rfl)).trans (.wr _ _ _ (.inl rfl))).trans ((StsTrace.wr _ _ _ (.inl rfl)).trans (.wr _ _ _ (.inl rfl)))
  · exact .refl s

theorem countError_kept (s : State) (r : MReq) (addr : Nat) : FieldsKept s (countError s r addr) (mportErrFields ++ eventFields 0x08) := by
  rw [countError_eq]
  exact (((errNamed_kept s r addr).mono (by simp [mportErrFields])).trans ((FieldsKept.bump _ _ 1).mono (by simp [mportErrFields]))).trans
    ((FieldsKept.setEvt _ evMportErr).mono (by simp [evMportErr]))

theorem rd_countError_count (s : State) (r : MReq) (addr : Nat) :
    rd (countError s r addr) trwMportErrCount = satAdd trwMportErrCount.width (rd s trwMportErrCount) 1 := by
  rw [countError_eq, FieldsKept.setEvt _ evMportErr _ (by decide), rd_bump_self _ (.inr (.inr (.inl rfl))), Nat.mod_eq_of_lt (satAdd_lt _ _ _),
    errNamed_kept s r addr _ (by decide)]

theorem rd_countError_addr {s : State} (r : MReq) (addr : Nat) (h : rd s trwMportErrCount = 0) :
    rd (countError s r addr) trwErrAddrAddr = addr % 2 ^ 64 := by
  rw [countError_eq, FieldsKept.setEvt _ evMportErr _ (by decide), rd_bump_ne _ _ (by decide), errNamed, if_pos h,
    rd_wr_self _ (.inr (.inr (.inl rfl)))]
  rfl

theorem countError_event (s : State) (r : MReq) (addr : Nat) : bitOf (rd (countError s r addr) (hdrEvt 0x08)) 8 = true := by
  rw [countError_eq]; exact setEvt_sets (e := evMportErr) _ (by decide)

section
variable {port : BitVec 4} {tag : BitVec 10} (poison : BitVec 16) (data : List Byte) {s : State} {r : MReq} (h : Awaits s port tag r)
  {key core part : Nat} (hwhy : r.why = .cmdRead key core part)
include h hwhy

/-- A good response to a read of a command that is no product: the bytes join what its unit holds, and memory holds them (log 21). -/
theorem Awaits.read_ok {c : Cmd} (hc : findCmd s key = some c) (hprod : isProduct c.desc = false) (htakes : takesErr c = true) :
    ∃ t, exec (.mportResponse port tag .ok poison data) s = .next t ∧ RequestEnds s t r ∧
      (∀ a, (∃ x ∈ r.strobes, x.1 ≤ a ∧ a < x.1 + x.2) → t.byte a = responseByte r data a ∧
        ((∀ e ∈ s.staged, e.key = key → e.core = core → e.part = part) → (readView t key core).byte a = responseByte r data a)) ∧
      (∀ a, (∀ x ∈ r.strobes, a < x.1 ∨ x.1 + x.2 ≤ a) → t.byte a = s.byte a) ∧
      t = { s with mem := t.mem, mreqs := t.mreqs, staged := t.staged, mwait := t.mwait } := by
  have hd : discarded s r = false := by simp [discarded, hwhy, hc, htakes, hprod]
  have hexec := h.succeeds poison data hd
  rw [responseOk_read data hwhy hc hprod] at hexec
  refine ⟨_, hexec, requestEnds_settle_pump (by rw [readArrived_only]; rfl) (by rw [readArrived_only]; rfl),
    fun a ha => ⟨?_, fun hlone => ?_⟩, fun a ha => ?_, readArrived_settles data key core part h.wbuf h.rbuf⟩
  · rw [byte_readArrived data key core part h.wbuf, State.byte, find_cell (v := responseByte r data a)]
    · exact fun p hp e => by rw [(mem_responseCells.mp (List.mem_reverse.mp hp)).2, e]
    · exact ⟨(a, responseByte r data a), List.mem_reverse.mpr (mem_responseCells.mpr ⟨ha, rfl⟩), rfl⟩
  · obtain ⟨l, hl⟩ := rbuf_readView_holdBytes (responseCells r data)
      (s := { withoutRequest s r with wbuf := (responseCells r data).reverse ++ s.wbuf }) hlone
    rw [State.byte, readView_wbuf, settle_wbuf, readView_rbuf, settle_staged, pump_staged, ← readView_rbuf, readArrived, hl, List.find?_append,
      find_responseCells data ha]
    rfl
  · rw [byte_readArrived data key core part h.wbuf, byte_settled h.wbuf h.rbuf, State.byte, List.find?_eq_none.mpr fun p hp e => ?_]
    · rfl
    · obtain ⟨⟨y, hy, hlo, hhi⟩, -⟩ := mem_responseCells.mp (List.mem_reverse.mp hp)
      have hpa : p.1 = a := by simpa using e
      have := ha y hy
      omega

/-- An error response to a read of a started command fails the part that read (R196, R197). -/
theorem Awaits.read_failed {c : Cmd} (hw : r.write = false) (hc : findCmd s key = some c) (hs : c.phase = .started) (hp : c.pack = [])
    (hlive : isProduct c.desc = false ∨ 7 ≤ core ∨ ∃ e ∈ s.staged, e.key = key ∧ e.core = core ∧ e.part = part) :
    ∃ t, exec (.mportResponse port tag .error poison data) s = .next t ∧ RequestEnds s t r ∧
      findCmd t key = some { c with errs := c.errs ++ [(core, stMportError)] } ∧ Others s t key ∧
      rd t trwMportErrCount = satAdd trwMportErrCount.width (rd s trwMportErrCount) 1 ∧ bitOf (rd t (hdrEvt 0x08)) 8 = true ∧
      (rd s trwMportErrCount = 0 → rd t trwErrAddrAddr = r.addr % 2 ^ 64) ∧
      StatusKept s t [0x04, 0x08] ∧ t = { s with
        cmds := t.cmds, sts := t.sts, trace := t.trace, cport := t.cport, mreqs := t.mreqs, mwait := t.mwait } := by
  let v := countError (withoutRequest s r) r r.addr
  have hv : StsTrace (withoutRequest s r) v := .countError ..
  have hvc : v.cmds = s.cmds := by rw [hv]; rfl
  obtain ⟨f, hf, hkey, herr⟩ := readFailed_errs core ((findCmd_congr hvc key).trans hc) hs hp
  have hd : discarded s r = false := by
    simp only [discarded, hwhy, hc, takesErr, hs, Bool.or_eq_false_iff, Bool.and_eq_false_iff, Bool.not_eq_false', List.any_eq_true,
      Bool.and_eq_true, beq_iff_eq, decide_eq_false_iff_not, and_assoc, or_assoc, Nat.not_lt]
    exact ⟨rfl, hlive⟩
  have hbad : responseBad v r = modCmd v key f := by simp [responseBad, hwhy, hf]
  have hexec := h.readFails poison data hd hw (by simp [requestOwn, hwhy])
  rw [hbad] at hexec
  have hrd : ∀ g, rd (settle s (pump (modCmd v key f))) g = rd v g := fun g => by rw [rd_settle, rd_pump]; rfl
  have hkept : FieldsKept s v (mportErrFields ++ eventFields 0x08) := countError_kept (withoutRequest s r) r r.addr
  refine ⟨_, hexec, requestEnds_settle_pump (by rw [hv]; rfl) (by rw [hv]; rfl), ?_, fun j hj => ?_, ?_, ?_, fun h0 => ?_, ?_, ?_⟩
  · rw [findCmd_settle, findCmd_pump, findCmd_modCmd ((findCmd_congr hvc key).trans hc) hkey, herr]; rfl
  · rw [findCmd_settle, findCmd_pump, findCmd_modCmd_ne _ hj hkey, findCmd_congr hvc]
  · rw [hrd]; exact rd_countError_count (withoutRequest s r) r r.addr
  · rw [hrd]; exact countError_event ..
  · rw [hrd]; exact rd_countError_addr (s := withoutRequest s r) r r.addr h0
  · exact (hkept.congr (u := settle s (pump (modCmd v key f))) (by rw [settle_cfg, pump_only]; rfl) (by rw [settle_sts, pump_only]; rfl)).statusKept
      (by decide)
  · have hx : StsTrace { withoutRequest s r with cmds := (modCmd v key f).cmds } (modCmd v key f) := by
      unfold StsTrace; rw [modCmd]; dsimp only; rw [hv]
    exact (settle_pump_stsTrace (s := s) hx rfl rfl h.wbuf h.rbuf).trans (by simp [withoutRequest])

/-- A response for a command that is gone ends its request alone (R403, log 81). -/
theorem Awaits.read_gone {st : MStatus} (hst : st = .ok ∨ st = .error) (hgone : findCmd s key = none) :
    ∃ t, exec (.mportResponse port tag st poison data) s = .next t ∧ RequestEnds s t r ∧ t = { s with mreqs := t.mreqs, mwait := t.mwait } := by
  refine ⟨_, h.discards st poison data hst (by simp [discarded, hwhy, hgone]), requestEnds_settle_pump rfl rfl, ?_⟩
  rw [settle_pump_still (s := s) (u := withoutRequest s r) rfl rfl rfl h.rbuf, pump_only]
  simp [withoutRequest, h.wbuf]

end

/-! ### Completion and hand-off records (R214, R317) -/

/-- The state with a command retired: it is gone and RETIRED has passed it. -/
def retired (s : State) (c : Cmd) : State :=
  wr { s with cmds := s.cmds.filter (fun e => e.key != c.key) } (queRetiredCount c.q) (rd s (queRetiredCount c.q) + 1)

/-- The record of a command that ended OK halts no queue, and a running queue goes on running (R297, R318). -/
theorem retire_ok {s : State} {c : Cmd} (hst : c.status = stOK) (hrun : (queueOf s c.q).state = .running) : retire s c false =
    setEvtIf (dIrq c.desc || rd (retired s c) (queRingCtlIrqAll c.q) == 1) (retired s c) (evCpl c.q) := by
  have hirq : rd (retired s c) (queRingCtlIrqAll c.q) = rd s (queRingCtlIrqAll c.q) := rd_congr_rw (.inl rfl) rfl
  have hdr : ∀ u : State, u.queues = s.queues → drained u c.q = u := fun u hu => by
    have hq : queueOf u c.q = queueOf s c.q := by rw [queueOf, hu, queueOf]
    simp [drained, hq, hrun]
  rw [hirq]
  simp only [retire, hst, hrun, Bool.not_false, Bool.true_and, bne_self_eq_false, Bool.and_false, Bool.false_and, Bool.false_eq_true, if_false]
  exact hdr _ (by rw [setEvtIf_queues, wr_queues])

section
variable {port : BitVec 4} {tag : BitVec 10} (poison : BitVec 16) (data : List Byte) {s : State} {r : MReq} (h : Awaits s port tag r)
include h

/-- The acknowledge of a completion record retires its command (R317). -/
theorem Awaits.completion_acked {key : Nat} {c : Cmd} (hwhy : r.why = .completion key) (hq : key < firedKey) (hc : findCmd s key = some c)
    (hst : c.status = stOK) (hrun : (queueOf s c.q).state = .running) :
    ∃ t, exec (.mportResponse port tag .ok poison data) s = .next t ∧ RequestEnds s t r ∧
      t.cmds = s.cmds.filter (fun e => e.key != key) ∧ rd t (queRetiredCount c.q) = (rd s (queRetiredCount c.q) + 1) % 2 ^ 32 ∧
      (dIrq c.desc = true → bitOf (rd t (hdrEvt (0x30 + c.q))) 8 = true) ∧
      FieldsKept s t (queRetiredCount c.q :: eventFields (0x30 + c.q)) ∧ t = { s with
        cmds := t.cmds, sts := t.sts, trace := t.trace, cport := t.cport, mreqs := t.mreqs, mwait := t.mwait } := by
  let w := withoutRequest s r
  let u := setEvtIf (dIrq c.desc || rd (retired w c) (queRingCtlIrqAll c.q) == 1) (retired w c) (evCpl c.q)
  have hcw : findCmd w key = some c := hc
  have hexec := h.succeeds poison data (by simp [discarded, hwhy])
  rw [show responseOk w r data = u by simp [responseOk, hwhy, completionAck, hcw, Nat.ne_of_lt hq, retire_ok (s := w) hst hrun, u]] at hexec
  have hu : StsTrace { w with cmds := w.cmds.filter (fun e => e.key != c.key) } u := (StsTrace.wr _ _ _ (.inl rfl)).trans (.setEvtIf _ _ _)
  have hkept : FieldsKept w u (queRetiredCount c.q :: eventFields (0x30 + c.q)) :=
    (FieldsKept.mono (l := [queRetiredCount c.q]) (FieldsKept.wr { w with cmds := w.cmds.filter (fun e => e.key != c.key) } _ _) (by simp)).trans
      ((FieldsKept.setEvtIf _ _ (evCpl c.q)).mono (by simp [evCpl]))
  have hapart : fieldKey (queRetiredCount c.q) ∉ (eventFields (0x30 + c.q)).map fieldKey := by
    simp only [eventFields, List.map_cons, List.map_nil, List.mem_cons, List.not_mem_nil, or_false, not_or, fieldKey, queRetiredCount,
      hdrEvt, hdrEvtStamp, trcDroppedFull, trcDroppedBacklog, trcDroppedAsleep]
    omega
  refine ⟨_, hexec, requestEnds_settle_pump (by rw [hu]; rfl) (by rw [hu]; rfl), ?_, ?_, fun hirq => ?_, hkept.pump.settle, ?_⟩
  · rw [settle_cmds, pump_cmds, hu, ← findCmd_key hc]; rfl
  · rw [rd_settle, rd_pump, FieldsKept.setEvtIf _ (retired w c) (evCpl c.q) _ hapart, retired, rd_wr_self _ (.inr (.inr (.inl rfl)))]
    rfl
  · rw [rd_settle, rd_pump]
    exact setEvtIf_sets (e := evCpl c.q) _ (by simp [hirq]) (show 8 < 32 by decide)
  · exact (settle_pump_stsTrace (s := s) hu rfl rfl h.wbuf h.rbuf).trans (by rw [settle_cmds, pump_cmds, hu]; rfl)

/-- The acknowledge of a hand-off record moves HEAD past it (R214). -/
theorem Awaits.handoff_acked {key : Nat} (hwhy : r.why = .handoff key) :
    ∃ t, exec (.mportResponse port tag .ok poison data) s = .next t ∧ RequestEnds s t r ∧ t.handoffs = s.handoffs.drop 1 ∧
      rd t sivHringHeadIndex = (rd s sivHringHeadIndex + 1) % 2 ^ 32 ∧ bitOf (rd t (hdrEvt 0x0A)) 8 = true ∧
      StatusKept s t [0x04, 0x0A] ∧ t = { s with
        handoffs := t.handoffs, sts := t.sts, trace := t.trace, cport := t.cport, mreqs := t.mreqs, mwait := t.mwait } := by
  let w := withoutRequest s r
  let x : State := { w with handoffs := s.handoffs.drop 1 }
  let y := wr x sivHringHeadIndex ((rd w sivHringHeadIndex + 1) % 2 ^ 32)
  let u := setEvt (bump y sivHoffCountHandoffs 1) evHoff
  have hexec := h.succeeds poison data (by simp [discarded, hwhy])
  rw [show responseOk w r data = u by simp only [responseOk, hwhy]; rfl] at hexec
  have hu : StsTrace x u := ((StsTrace.wr _ _ _ (.inl rfl)).trans (.bump _ _ 1 (.inl rfl))).trans (.setEvt _ _)
  have hkept : FieldsKept s u (sivHringHeadIndex :: sivHoffCountHandoffs :: eventFields 0x0A) :=
    (((FieldsKept.wr x _ _).mono (by simp)).trans ((FieldsKept.bump y _ 1).mono (by simp))).trans
      ((FieldsKept.setEvt _ evHoff).mono (by simp [evHoff]))
  refine ⟨_, hexec, requestEnds_settle_pump (by rw [hu]; rfl) (by rw [hu]; rfl), ?_, ?_, ?_, hkept.pump.settle.statusKept (by decide), ?_⟩
  · rw [settle_handoffs, pump_handoffs, hu]
  · rw [rd_settle, rd_pump, FieldsKept.setEvt _ evHoff _ (by decide), rd_bump_ne _ _ (by decide), rd_wr_self _ (.inr (.inr (.inl rfl)))]
    exact Nat.mod_mod ..
  · rw [rd_settle, rd_pump]; exact setEvt_sets (e := evHoff) _ (by decide)
  · exact (settle_pump_stsTrace (s := s) hu rfl rfl h.wbuf h.rbuf).trans (by rw [settle_handoffs, pump_handoffs, hu]; rfl)

end

/-- Settles O58, one lemma for each clause: no response is taken, none awaits it, or the one that does was a read of a command, a completion
record or a hand-off record. -/
theorem responsesEndRequests : Obligations.ResponsesEndRequests := by
  unfold Obligations.ResponsesEndRequests
  intro port tag st poison data s hw hr i hit answered
  refine ⟨mportResponse_asleep st poison data, fun ha hc => ⟨fun hnone => mportResponse_unknown st poison data ha hc hnone hw hr,
    fun r key core part c hhit hwhy hst hfind hprod htakes _ => ?_, fun r key core part c hhit hwhy hwr hst hfind hphase hpack hlive => ?_,
    fun r key core part hhit hwhy _ hst hgone => ?_, fun r key c hhit hwhy hq hst hfind hok hrun => ?_, fun r key hhit hwhy hst => ?_⟩⟩
  · subst hst
    obtain ⟨t, hexec, hends, hbytes, hout, hframe⟩ := (Awaits.mk ha hc hhit hw hr).read_ok poison data hwhy hfind hprod htakes
    exact ⟨t, hexec, hends, fun x hx a hlo hhi => hbytes a ⟨x, hx, hlo, hhi⟩, hout, hframe⟩
  · subst hst
    exact (Awaits.mk ha hc hhit hw hr).read_failed poison data hwhy hwr hfind hphase hpack hlive
  · exact (Awaits.mk ha hc hhit hw hr).read_gone poison data hwhy hst hgone
  · subst hst
    exact (Awaits.mk ha hc hhit hw hr).completion_acked poison data hwhy hq hfind hok hrun
  · subst hst
    exact (Awaits.mk ha hc hhit hw hr).handoff_acked poison data hwhy

end Sys2Proof.Machine
end

section
/-! SUPPORT. O44: an output array that lies over its own layout record changes the format of the store that writes it. -/

namespace Sys2Proof.Machine

/-- A started PLAIN of one row, two outputs and one K whose two sums have left the edge of array 0. Its output's layout record is at 0x100 and it
holds no copy of it. The low byte of the first sum, as FP32, is 0x13: an MX output of E4M3. -/
def overlaidPlain : Cmd :=
  { newCmd State.reset (refKey loneRef) (natLE 0x02 1 ++ zeros 0x4F ++ natLE 1 4 ++ natLE 2 4 ++ natLE 1 4) 0 with
    screened := 1, outRec := 0x100, items := [⟨.stat, 0, 0, 0, 0, .active⟩]
    aux := [(auxKey 0 0, (fp32ToAF48 0x3F800013).toNat), (auxKey 0 1, (fp32ToAF48 0x3F800000).toNat)] }

/-- The command alone in ACTIVE. The record at 0x100 is a plain FP32 array of 1 row and 2 columns with base 0x108, so the first element's low byte
is the record's own format byte; its scale record is at address 0. -/
def overlaidState : State :=
  { State.reset with
    power := ⟨.active, .running, true, true, false, false, false, false, 0, 0⟩
    cmds := [overlaidPlain]
    mem := [(0x100, 0x08), (0x101, 0x01), (0x10A, 2), (0x10B, 2), (0x110, 2), (0x114, 1)] }

/-- TROWEL_STORE may store both elements of the command. -/
theorem overlaidState_may : findCmd overlaidState (refKey loneRef) = some overlaidPlain ∧ unitsRun overlaidState = true ∧
    isProduct overlaidPlain.desc = true ∧ pStores overlaidPlain.desc = true ∧ heldBack overlaidState overlaidPlain = false ∧
    storeRun overlaidState overlaidPlain = [(0, 0), (0, 1)] ∧ pM overlaidPlain.desc = 1 ∧ pNExt overlaidPlain.desc = 2 := by
  decide +kernel

/-- Its output is plain, with its two elements in the eight bytes from 0x108 on. -/
theorem overlaidState_output : let l := layoutAt overlaidState overlaidPlain.outRec
    l.mx = false ∧ layoutBits l = 32 ∧ elemAddr l 0 0 = (0x108, 0) ∧ elemAddr l 0 1 = (0x10C, 0) := by
  decide +kernel

theorem outside_overlaidPlain :
    Outside (layoutAt overlaidState overlaidPlain.outRec) (pM overlaidPlain.desc) (pNExt overlaidPlain.desc) 0 := by
  obtain ⟨-, -, -, -, -, -, hm, hn⟩ := overlaidState_may
  obtain ⟨-, -, hfirst, hsecond⟩ := overlaidState_output
  rw [hm, hn]
  intro r hr c hc
  obtain rfl : r = 0 := by omega
  obtain rfl | rfl : c = 0 ∨ c = 1 := by omega
  · exact .inl (by rw [hfirst]; decide)
  · exact .inl (by rw [hsecond]; decide)

/-- The store writes the scale of an MX block at address 0, where the memory held 0. -/
theorem overlaidState_scale : overlaidState.byte 0 = 0 ∧
    (storeMove overlaidState (refKey loneRef)).map (fun u => (settle overlaidState u).byte 0) = some 0x77 := by
  decide +kernel

/-- Refutes O44: the store takes its addresses from the layout record as it stood before, but the format of each element from the record as it
stands then (`storeFmtOf`). A command that holds no copy of its output's record reads it from memory, so an output array that lies over its own
record may change the format: the first of two elements makes the plain output an MX one, and the store of the second writes the scale of its
block at address 0, outside the elements. -/
theorem not_trowelsFetchAndStore : ¬ Obligations.TrowelsFetchAndStore := by
  unfold Obligations.TrowelsFetchAndStore
  intro h
  obtain ⟨-, hstore, -⟩ := h
  obtain ⟨hfind, hunits, hproduct, hstores, hfree, hrun, hm, hn⟩ := overlaidState_may
  have hinside : ∀ p ∈ storeRun overlaidState overlaidPlain, p.1 < pM overlaidPlain.desc ∧ p.2 < pNExt overlaidPlain.desc := by
    rw [hrun, hm, hn]; decide
  obtain ⟨hmay, -⟩ := hstore loneRef overlaidState overlaidPlain hfind rfl rfl
  obtain ⟨t, -, hexec, -, -, -, hout, -⟩ := hmay ⟨hunits, hproduct, hstores, rfl, hfree, by simp [hrun]⟩ hinside (by decide)
  have hkept := hout overlaidState_output.1 0 outside_overlaidPlain
  obtain ⟨hzero, hscale⟩ := overlaidState_scale
  obtain ⟨u, hmove, hbyte⟩ := Option.map_eq_some_iff.mp hscale
  change answer overlaidState (storeMove overlaidState (refKey loneRef)) = _ at hexec
  rw [hmove] at hexec
  rw [← Host.Outcome.next.inj hexec, hbyte, hzero] at hkept
  exact absurd hkept (by decide)

end Sys2Proof.Machine
end
